-- ==== Sys2Proof/Word.lean ====
section
/-! DEFINITION. The word types of the part (R210: 16-bit words on the links and in the tables, 12-bit words at the sensor
ports; the 32-bit tick and the 16-bit frame number of the conventions in 00_scope.md), and the two sides. -/

namespace Sys2Proof

/-- A 16-bit word of a link packet or of a table (R210). -/
abbrev Word := BitVec 16

/-- A tick of the time base: 10 µs, in a 32-bit counter that wraps (00_scope.md, Tick). -/
abbrev Tick := BitVec 32

/-- A sensor frame number (00_scope.md, Frame numbers). -/
abbrev FrameNo := BitVec 16

/-- A 12-bit sample or embedded status word of a sensor line (R1, R212). -/
abbrev Sample := BitVec 12

/-- An 8-bit channel value of an output pixel. -/
abbrev Byte := BitVec 8

/-- The two sides of the part; each side's display link carries the side's name (00_scope.md, Sides). -/
inductive Side where
  | left
  | right
  deriving DecidableEq, Repr

/-- The other side. -/
def Side.other : Side → Side
  | .left => .right
  | .right => .left

/-- The code of a side, 0 LEFT and 1 RIGHT (R210). -/
def Side.code : Side → Nat
  | .left => 0
  | .right => 1

/-- One value for each side. -/
structure Sided (α : Type) where
  left : α
  right : α
  deriving DecidableEq, Repr

namespace Sided

variable {α : Type}

/-- The value of one side. -/
def get (p : Sided α) : Side → α
  | .left => p.left
  | .right => p.right

/-- The pair with one side's value replaced. -/
def set (p : Sided α) (x : Side) (a : α) : Sided α :=
  match x with
  | .left => { p with left := a }
  | .right => { p with right := a }

end Sided

end Sys2Proof
end

