-- ==== Sys2Proof/Syntax.lean ====
section
/-! DEFINITION. The commands of the part: one constructor for each row of spec/opcode_table.json. A command is one event that
the part takes: an item at a sensor port, a response on a sensor bus, an expiry, a start of the output timing, a link event, a
packet of a reverse channel, or the external reset. -/

namespace Sys2Proof

/-- What a directive packet carries beside its code (R198, R211): tag, side field, length field, the two selector words and the
argument words that stand between S1 and the check word. The length field need not be the number of argument words carried. -/
structure Packet where
  tag : BitVec 8
  side : BitVec 2
  length : BitVec 8
  s0 : Word
  s1 : Word
  args : List Word
  deriving DecidableEq, Repr

/-- What the camera answers on a sensor bus (R19): ACK when `ack` is true, NAK otherwise, to the write transaction with the model's number
`transaction`. DESIGN CHOICE: the number (log entry 38). -/
structure BusResponse where
  transaction : Nat
  ack : Bool
  deriving DecidableEq, Repr

/-- The commands, one for each row of the table. `side` names the side whose port, bus or composer the event reaches; `link` names
the display link that carries the packet or on which the link event falls. -/
inductive Instr where
  /-- FRAME_BEGIN_MARKER (R2). -/
  | frameBeginMarker (side : Side)
  /-- LINE (R3): the 12-bit words of the line, in order. -/
  | line (side : Side) (words : List Sample)
  /-- FRAME_END_MARKER (R4). -/
  | frameEndMarker (side : Side)
  /-- LOSS_EXPIRY (R9). -/
  | lossExpiry (side : Side)
  /-- SENSOR_BUS_RESPONSE (R19). -/
  | sensorBusResponse (side : Side) (response : BusResponse)
  /-- RESPONSE_TIMER_EXPIRY (R19). -/
  | responseTimerExpiry (side : Side)
  /-- ARTICULATION_TIMER_EXPIRY (R101). -/
  | articulationTimerExpiry
  /-- OUTPUT_FRAME_START (R133). -/
  | outputFrameStart (side : Side)
  /-- LINE_PERIOD_START (R186): the start of line period `period` of the output frames of both sides. -/
  | linePeriodStart (period : Fin 1300)
  /-- TRAINING_REQUEST (R191). -/
  | trainingRequest (link : Side)
  /-- READY (R191). -/
  | ready (link : Side)
  /-- LOSS_OF_LOCK (R191). -/
  | lossOfLock (link : Side)
  /-- STATUS_WORD (R147, R211): the echo count and the panel status word. -/
  | statusWord (link : Side) (echo : BitVec 32) (panel : Word)
  /-- PACKET_DROPPED (R195): the words of the dropped packet. -/
  | packetDropped (link : Side) (words : List Word)
  /-- UNKNOWN_DIRECTIVE (R198): a directive packet with its code. -/
  | unknownDirective (link : Side) (code : BitVec 8) (pkt : Packet)
  /-- READ_ITEM FRAME_HISTORY (R200). -/
  | frameHistory (link : Side) (pkt : Packet)
  /-- READ_ITEM FAULT_RECORD (R181). -/
  | faultRecord (link : Side) (pkt : Packet)
  /-- READ_ITEM ERROR_LOG (R129, R173). -/
  | errorLog (link : Side) (pkt : Packet)
  /-- READ_ITEM EXPOSURE_STATE (R49). -/
  | exposureState (link : Side) (pkt : Packet)
  /-- READ_ITEM GLARE_LEVELS (R92). -/
  | glareLevels (link : Side) (pkt : Packet)
  /-- READ_ITEM WINDOW_STATE (R106). -/
  | windowState (link : Side) (pkt : Packet)
  /-- READ_ITEM SLOT_STATE (R128). -/
  | slotState (link : Side) (pkt : Packet)
  /-- READ_ITEM TABLE_STATE (R173). -/
  | tableState (link : Side) (pkt : Packet)
  /-- READ_ITEM DEFECT_ENTRY (R170). -/
  | defectEntry (link : Side) (pkt : Packet)
  /-- READ_ITEM PART_STATE (R201). -/
  | partState (link : Side) (pkt : Packet)
  /-- LOAD_TABLE (R158). -/
  | loadTable (link : Side) (pkt : Packet)
  /-- COMMIT (R159). -/
  | commit (link : Side) (pkt : Packet)
  /-- SET_PROFILE_MODE FORCE (R46, R202). -/
  | setProfileModeForce (link : Side) (pkt : Packet)
  /-- SET_PROFILE_MODE AUTO (R47, R202). -/
  | setProfileModeAuto (link : Side) (pkt : Packet)
  /-- ARTICULATION (R99). -/
  | articulation (link : Side) (pkt : Packet)
  /-- AIM (R105). -/
  | aim (link : Side) (pkt : Packet)
  /-- TRIM (R48, R203). -/
  | trim (link : Side) (pkt : Packet)
  /-- OUTPUT_MODE (R134, R203). -/
  | outputMode (link : Side) (pkt : Packet)
  /-- DEFECT_ADD (R167). -/
  | defectAdd (link : Side) (pkt : Packet)
  /-- DEFECT_REMOVE (R168). -/
  | defectRemove (link : Side) (pkt : Packet)
  /-- DEFECT_SPLIT (R166). -/
  | defectSplit (link : Side) (pkt : Packet)
  /-- ACK_FAULT (R179). -/
  | ackFault (link : Side) (pkt : Packet)
  /-- NOTICE_MASK (R204). -/
  | noticeMask (link : Side) (pkt : Packet)
  /-- CLEAR_ERROR_LOG (R207). -/
  | clearErrorLog (link : Side) (pkt : Packet)
  /-- INJECT_ERROR naming the frame store (R126, R207). -/
  | injectErrorFrameStore (link : Side) (pkt : Packet)
  /-- INJECT_ERROR naming the table store (R172, R207). -/
  | injectErrorTableStore (link : Side) (pkt : Packet)
  /-- LOCK (R165, R206). -/
  | lock (link : Side) (pkt : Packet)
  /-- SENSOR_WRITE (R17, R205). -/
  | sensorWrite (link : Side) (pkt : Packet)
  /-- RESTART_SIDE (R208). -/
  | restartSide (link : Side) (pkt : Packet)
  /-- POWER_ON_RESET: the end of power-on reset (R209). -/
  | powerOnReset
  /-- RESET_INPUT_ASSERTED (R209). -/
  | resetInputAsserted
  deriving DecidableEq, Repr

end Sys2Proof
end

