-- ==== Sys2Proof/Machine/Types.lean ====
section
/-! DEFINITION. The names the part gives its states, modes, classes and tables, and the small records its blocks hold. Codes are
those of R210, R153, R175, R176 and R198; where the spec gives a name no code, the code is an open value of Config. -/

namespace Sys2Proof.Machine

/-! ## Sensor port -/

/-- The port state (R8). -/
inductive PortState where
  | searching
  | running
  | lost
  deriving DecidableEq, Repr

/-- The reception phase (R2). -/
inductive RxPhase where
  | closed
  | status
  | lines
  deriving DecidableEq, Repr

/-- The temperature class (R12). -/
inductive TempClass where
  | normal
  | warm
  | hot
  deriving DecidableEq, Repr

/-- The code of a temperature class (R210). -/
def TempClass.code : TempClass → Nat
  | .normal => 0
  | .warm => 1
  | .hot => 2

/-! ## Sensor bus -/

/-- The bus state (R18). -/
inductive BusState where
  | idle
  | sending
  deriving DecidableEq, Repr

/-- The origin of a write (R15). -/
inductive Origin where
  | exposure
  | service
  deriving DecidableEq, Repr

/-- An entry of the write buffer (R15). -/
structure WriteEntry where
  register : Word
  value : Word
  origin : Origin
  group : BitVec 8
  sent : Bool
  deriving DecidableEq, Repr

/-- What an open write transaction carries on the sensor bus (R18). `number` is the model's name for the transaction, which a response
carries (R19; log entry 38). -/
structure Transaction where
  number : Nat
  device : BitVec 8
  register : Word
  value : Word
  deriving DecidableEq, Repr

/-! ## Exposure -/

/-- A profile bank number, 0..3 (R43). -/
abbrev Bank := Fin 4

/-- The profile mode (section 2.6). -/
inductive ProfileMode where
  | auto
  | forced (bank : Bank)
  deriving DecidableEq, Repr

/-- An exposure record (R27): E, I, a and d. -/
structure ExpRecord where
  total : Nat
  integ : Nat
  analog : Nat
  digital : Nat
  deriving DecidableEq, Repr

/-- An entry of the pending exposure queue (R40). -/
structure PendingEntry where
  target : FrameNo
  record : ExpRecord
  deriving DecidableEq, Repr

/-- An item of the outstanding list (R39). -/
structure OutstandingItem where
  group : BitVec 8
  record : ExpRecord
  deriving DecidableEq, Repr

/-! ## Development -/

/-- The geometry tag of a developed frame (R55). -/
inductive Geometry where
  | live
  | service
  deriving DecidableEq, Repr

/-- A window in cells (00_scope.md, Coordinates). -/
structure Window where
  x : Nat
  y : Nat
  w : Nat
  h : Nat
  deriving DecidableEq, Repr

/-- An output pixel: three 8-bit channels (R69). -/
structure Pixel where
  r : Byte
  g : Byte
  b : Byte
  deriving DecidableEq, Repr

/-- One demosaiced cell (R64). -/
structure Cell where
  r : Nat
  g : Nat
  b : Nat
  deriving DecidableEq, Repr

/-- The accumulators of one zone: green sum and bright count (R65). -/
structure ZoneAcc where
  green : Nat
  bright : Nat
  deriving DecidableEq, Repr

/-- An entry of a defect list. `cls` is the class field as the two stored words hold it (R213); the values the part writes are the
codes of NORMAL, WARM and HOT. -/
structure DefectEntry where
  row : Nat
  col : Nat
  cls : BitVec 2
  deriving DecidableEq, Repr

/-- A pending defect edit (R56); a REMOVE carries no class. -/
inductive DefectEdit where
  | add (row col : Nat) (cls : BitVec 2)
  | remove (row col : Nat)
  deriving DecidableEq, Repr

/-! ## Glare and framing -/

/-- The level and hold count of one zone (R79). -/
structure GlareZone where
  level : Nat
  hold : Nat
  deriving DecidableEq, Repr

/-- The glare unit's last update (R79). -/
structure GlareUpdate where
  frame : FrameNo
  litCount : Nat
  suspended : Bool
  deriving DecidableEq, Repr

/-- A clamp mark of R95: `unclamped` is the spec's NONE. -/
inductive ClampMark where
  | unclamped
  | low
  | high
  deriving DecidableEq, Repr

/-- The windows of the latest frame start with their clamp marks (R95, R103). -/
structure FrameWindows where
  main : Window
  wide : Window
  markX : ClampMark
  markY : ClampMark
  deriving DecidableEq, Repr

/-! ## Frame store -/

/-- A slot number within a side (R109). -/
inductive SlotNo where
  | s0
  | s1
  | s2
  deriving DecidableEq, Repr

/-- The number of a slot, 0..2. -/
def SlotNo.num : SlotNo → Nat
  | .s0 => 0
  | .s1 => 1
  | .s2 => 2

/-- The state of a slot (R109). -/
inductive SlotState where
  | free
  | filling
  | ready
  | showing
  deriving DecidableEq, Repr

/-- A slot's source record (R109). -/
structure Source where
  frame : FrameNo
  arrival : Tick
  deriving DecidableEq, Repr

/-- What a slot holds while it is FILLING, READY or SHOWING (R109): its geometry tag, its source record and its link to a frame
record, which is the serial number that the model gives each frame record. -/
structure SlotContent where
  geometry : Geometry
  source : Source
  link : Nat
  deriving DecidableEq, Repr

/-- A frame-store slot (R109). -/
structure Slot where
  state : SlotState
  damaged : Bool
  content : Option SlotContent
  deriving DecidableEq, Repr

/-- The three slots of a side. -/
structure Slots where
  s0 : Slot
  s1 : Slot
  s2 : Slot
  deriving DecidableEq, Repr

/-- One slot. -/
def Slots.get (p : Slots) : SlotNo → Slot
  | .s0 => p.s0
  | .s1 => p.s1
  | .s2 => p.s2

/-- The slots with one replaced. -/
def Slots.set (p : Slots) (n : SlotNo) (a : Slot) : Slots :=
  match n with
  | .s0 => { p with s0 := a }
  | .s1 => { p with s1 := a }
  | .s2 => { p with s2 := a }

/-- The outcome of a sensor frame (R115). -/
inductive FrameOutcome where
  | pending
  | shown
  | skipped
  | stale
  | discarded
  deriving DecidableEq, Repr

/-- The code of an outcome (R210). -/
def FrameOutcome.code : FrameOutcome → Nat
  | .pending => 0
  | .shown => 1
  | .skipped => 2
  | .stale => 3
  | .discarded => 4

/-- A frame record (R6, R200). `serial` is the model's name for the record, which a slot's link holds (R109, R115). -/
structure FrameRecord where
  serial : Nat
  number : FrameNo
  gap : Bool
  arrival : Tick
  temp : Int
  cls : TempClass
  exposure : ExpRecord
  matched : Bool
  bank : Bank
  slot : Option SlotNo
  metered : Option (Nat × Int)
  glare : Option (Nat × Bool)
  outcome : FrameOutcome
  deriving DecidableEq, Repr

/-- A client of the DRAM port (R118). -/
inductive DramClient where
  | leftDeveloper
  | rightDeveloper
  | leftComposer
  | rightComposer
  deriving DecidableEq, Repr

/-- The kind of a memory error (R124, R171). -/
inductive ErrorKind where
  | corrected
  | uncorrectable
  deriving DecidableEq, Repr

/-- The record of an error log (R124, R171). -/
structure LogRecord where
  kind : ErrorKind
  addr : Nat
  syndrome : Nat
  side : Side
  deriving DecidableEq, Repr

/-- The kind of an injection (R126, R172). -/
inductive InjKind where
  | single
  | double
  deriving DecidableEq, Repr

/-- The trigger of an injection (R126, R172). -/
inductive InjTrigger where
  | address (a : Nat)
  | count (n : Nat)
  deriving DecidableEq, Repr

/-- An armed injection with its read count (R126, R172). -/
structure Injection where
  kind : InjKind
  trigger : InjTrigger
  reads : Nat
  deriving DecidableEq, Repr

/-! ## Output composer -/

/-- The output mode (R132). -/
inductive OutputMode where
  | live
  | pattern
  | service
  deriving DecidableEq, Repr

/-- The code of an output mode (R210). -/
def OutputMode.code : OutputMode → Nat
  | .live => 0
  | .pattern => 1
  | .service => 2

/-- The geometry of an output mode (R55, R113). -/
def OutputMode.geometry : OutputMode → Geometry
  | .live => .live
  | .pattern => .live
  | .service => .service

/-- The view state (R132). -/
inductive ViewState where
  | starting
  | liveOk
  | stale
  | lost
  | recovering
  deriving DecidableEq, Repr

/-- The code of a view state (R210). -/
def ViewState.code : ViewState → Nat
  | .starting => 0
  | .liveOk => 1
  | .stale => 2
  | .lost => 3
  | .recovering => 4

/-- The content of an output frame (R132, R135). -/
inductive Content where
  | picture (slot : SlotNo) (source : Source) (age : Tick)
  | viewStarting
  | viewLost
  | colourBars
  deriving DecidableEq, Repr

/-- The warning sample of an output frame (R144). -/
inductive Overlay where
  | redBand
  | amberBand
  | redSquare
  | amberSquare
  | clear
  deriving DecidableEq, Repr

/-- A status word as the composer holds it (R147): the echo count, and whether the panel status reports FAULT. -/
structure StatusWord where
  echo : BitVec 32
  panelFault : Bool
  deriving DecidableEq, Repr

/-! ## Table store -/

/-- The kind of a table (R153). -/
inductive TableKind where
  | tone
  | profile
  | ladder
  | glareAtt
  | pan
  | layout
  | sensor
  deriving DecidableEq, Repr

/-- The 13 tables of a side (R153). -/
inductive TableId where
  | tone0
  | tone1
  | tone2
  | tone3
  | profile0
  | profile1
  | profile2
  | profile3
  | ladder
  | glareAtt
  | pan
  | layout
  | sensor
  deriving DecidableEq, Repr

/-- The table ids in order 0..12 (R153). -/
def TableId.all : List TableId :=
  [.tone0, .tone1, .tone2, .tone3, .profile0, .profile1, .profile2, .profile3, .ladder, .glareAtt, .pan, .layout, .sensor]

/-- The table id as a number (R153). -/
def TableId.num : TableId → Nat
  | .tone0 => 0
  | .tone1 => 1
  | .tone2 => 2
  | .tone3 => 3
  | .profile0 => 4
  | .profile1 => 5
  | .profile2 => 6
  | .profile3 => 7
  | .ladder => 8
  | .glareAtt => 9
  | .pan => 10
  | .layout => 11
  | .sensor => 12

/-- The kind of a table (R153). -/
def TableId.kind : TableId → TableKind
  | .tone0 | .tone1 | .tone2 | .tone3 => .tone
  | .profile0 | .profile1 | .profile2 | .profile3 => .profile
  | .ladder => .ladder
  | .glareAtt => .glareAtt
  | .pan => .pan
  | .layout => .layout
  | .sensor => .sensor

/-- The number of words of a kind of table (R153). -/
def TableKind.words : TableKind → Nat
  | .tone => 65
  | .profile => 16
  | .ladder => 6
  | .glareAtt => 16
  | .pan => 19
  | .layout => 48
  | .sensor => 12

/-- The number of words of a table (R153). -/
def TableId.words (t : TableId) : Nat := t.kind.words

/-- The offset of a table in a bank block (R153). -/
def TableId.offset : TableId → Nat
  | .tone0 => 0
  | .tone1 => 65
  | .tone2 => 130
  | .tone3 => 195
  | .profile0 => 260
  | .profile1 => 276
  | .profile2 => 292
  | .profile3 => 308
  | .ladder => 324
  | .glareAtt => 330
  | .pan => 346
  | .layout => 365
  | .sensor => 413

/-- The PROFILE table of a bank (R43). -/
def TableId.profile (b : Bank) : TableId :=
  match b with
  | 0 => .profile0
  | 1 => .profile1
  | 2 => .profile2
  | 3 => .profile3

/-- The TONE table of a tone slot (R68), read in the two low bits of the slot field, whose range the commit holds to 0..3. -/
def TableId.tone (slot : Nat) : TableId :=
  match slot % 4 with
  | 0 => .tone0
  | 1 => .tone1
  | 2 => .tone2
  | _ => .tone3

/-- One value for each of a side's 13 tables. -/
structure PerTable (α : Type) where
  tone0 : α
  tone1 : α
  tone2 : α
  tone3 : α
  profile0 : α
  profile1 : α
  profile2 : α
  profile3 : α
  ladder : α
  glareAtt : α
  pan : α
  layout : α
  sensor : α
  deriving DecidableEq, Repr

namespace PerTable

variable {α : Type}

/-- The value of one table. -/
def get (p : PerTable α) : TableId → α
  | .tone0 => p.tone0
  | .tone1 => p.tone1
  | .tone2 => p.tone2
  | .tone3 => p.tone3
  | .profile0 => p.profile0
  | .profile1 => p.profile1
  | .profile2 => p.profile2
  | .profile3 => p.profile3
  | .ladder => p.ladder
  | .glareAtt => p.glareAtt
  | .pan => p.pan
  | .layout => p.layout
  | .sensor => p.sensor

/-- The values with one replaced. -/
def set (p : PerTable α) (t : TableId) (a : α) : PerTable α :=
  match t with
  | .tone0 => { p with tone0 := a }
  | .tone1 => { p with tone1 := a }
  | .tone2 => { p with tone2 := a }
  | .tone3 => { p with tone3 := a }
  | .profile0 => { p with profile0 := a }
  | .profile1 => { p with profile1 := a }
  | .profile2 => { p with profile2 := a }
  | .profile3 => { p with profile3 := a }
  | .ladder => { p with ladder := a }
  | .glareAtt => { p with glareAtt := a }
  | .pan => { p with pan := a }
  | .layout => { p with layout := a }
  | .sensor => { p with sensor := a }

/-- One value for each table, from a function of the table. -/
def ofFn (f : TableId → α) : PerTable α :=
  { tone0 := f .tone0, tone1 := f .tone1, tone2 := f .tone2, tone3 := f .tone3,
    profile0 := f .profile0, profile1 := f .profile1, profile2 := f .profile2, profile3 := f .profile3,
    ladder := f .ladder, glareAtt := f .glareAtt, pan := f .pan, layout := f .layout, sensor := f .sensor }

end PerTable

/-- A physical bank of a table (R153). -/
inductive PhysBank where
  | bank0
  | bank1
  deriving DecidableEq, Repr

/-- The other physical bank. -/
def PhysBank.other : PhysBank → PhysBank
  | .bank0 => .bank1
  | .bank1 => .bank0

/-- The number of a physical bank. -/
def PhysBank.num : PhysBank → Nat
  | .bank0 => 0
  | .bank1 => 1

/-- The shadow state (R154). -/
inductive ShadowState where
  | stale
  | loaded
  deriving DecidableEq, Repr

/-- What the table store holds for one table beside its words (R154): the role flag, for each physical bank the bad index while
the bank is poisoned, and the shadow state. -/
structure TableCtl where
  active : PhysBank
  bad0 : Option Nat
  bad1 : Option Nat
  shadow : ShadowState
  deriving DecidableEq, Repr

/-- The bad index of a physical bank; present exactly while the bank is poisoned (R154). -/
def TableCtl.bad (c : TableCtl) : PhysBank → Option Nat
  | .bank0 => c.bad0
  | .bank1 => c.bad1

/-- The control record with one bank's poison replaced. -/
def TableCtl.setBad (c : TableCtl) (p : PhysBank) (v : Option Nat) : TableCtl :=
  match p with
  | .bank0 => { c with bad0 := v }
  | .bank1 => { c with bad1 := v }

/-- A side's pending commit (R161): the named tables, bit i for table id i, and the link whose reply queue still holds the
reservation, if it does. -/
structure PendingCommit where
  tables : BitVec 13
  link : Option Side
  deriving DecidableEq, Repr

/-- The lock classes (R165). -/
inductive LockClass where
  | layout
  | sensor
  | pan
  | defects
  deriving DecidableEq, Repr

/-! ## Faults -/

/-- The 11 side classes (R175). -/
inductive SideClass where
  | sensorLoss
  | sensorFrame
  | exposureMismatch
  | sensorBus
  | sensorHot
  | viewStale
  | viewLost
  | displayFreeze
  | displayLinkDown
  | tablePoisoned
  | frameStoreError
  deriving DecidableEq, Repr

/-- The 2 part classes (R175). -/
inductive PartClass where
  | panInputStale
  | errorCorrected
  deriving DecidableEq, Repr

/-- The severities (R175). -/
inductive Severity where
  | info
  | caution
  | fault
  deriving DecidableEq, Repr

/-- The code of a severity (R210). -/
def Severity.code : Severity → Nat
  | .info => 0
  | .caution => 1
  | .fault => 2

/-- The class code of a side class (R175). -/
def SideClass.code : SideClass → Nat
  | .sensorLoss => 0
  | .sensorFrame => 1
  | .exposureMismatch => 2
  | .sensorBus => 3
  | .sensorHot => 4
  | .viewStale => 5
  | .viewLost => 6
  | .displayFreeze => 7
  | .displayLinkDown => 8
  | .tablePoisoned => 9
  | .frameStoreError => 10

/-- The side classes in code order (R175). -/
def SideClass.all : List SideClass :=
  [.sensorLoss, .sensorFrame, .exposureMismatch, .sensorBus, .sensorHot, .viewStale, .viewLost, .displayFreeze,
   .displayLinkDown, .tablePoisoned, .frameStoreError]

/-- The severity of a side class (R175). -/
def SideClass.severity : SideClass → Severity
  | .sensorLoss => .fault
  | .sensorFrame => .caution
  | .exposureMismatch => .caution
  | .sensorBus => .caution
  | .sensorHot => .caution
  | .viewStale => .caution
  | .viewLost => .fault
  | .displayFreeze => .fault
  | .displayLinkDown => .fault
  | .tablePoisoned => .fault
  | .frameStoreError => .caution

/-- The class code of a part class (R175). -/
def PartClass.code : PartClass → Nat
  | .panInputStale => 11
  | .errorCorrected => 12

/-- The name of a fault record (R176). -/
inductive RecordId where
  | side (c : SideClass) (x : Side)
  | part (c : PartClass)
  deriving DecidableEq, Repr

/-- The class code of a record (R175). -/
def RecordId.classCode : RecordId → Nat
  | .side c _ => c.code
  | .part c => c.code

/-- The record index (R176). -/
def RecordId.index : RecordId → Nat
  | .side c .left => c.code
  | .side c .right => 11 + c.code
  | .part .panInputStale => 22
  | .part .errorCorrected => 23

/-- The severity of a record is that of its class (R175, R176). -/
def RecordId.severity : RecordId → Severity
  | .side c _ => c.severity
  | .part _ => .info

/-- The records of one side, in index order (R176). -/
def RecordId.ofSide (x : Side) : List RecordId := SideClass.all.map (fun c => .side c x)

/-- The 24 records in index order (R176). -/
def RecordId.all : List RecordId :=
  RecordId.ofSide .left ++ RecordId.ofSide .right ++ [.part .panInputStale, .part .errorCorrected]

/-- The state of a record (R176). -/
inductive RecordState where
  | clear
  | active
  | acked
  deriving DecidableEq, Repr

/-- The code of a record state (R210). -/
def RecordState.code : RecordState → Nat
  | .clear => 0
  | .active => 1
  | .acked => 2

/-- A fault record (R176); its class and scope are those of its name. -/
structure FaultRecord where
  state : RecordState
  count : Nat
  firstActive : Option Tick
  lastChange : Option Tick
  detail : Word
  deriving DecidableEq, Repr

/-- The 11 fault records of a side (R176). -/
structure SideRecords where
  sensorLoss : FaultRecord
  sensorFrame : FaultRecord
  exposureMismatch : FaultRecord
  sensorBus : FaultRecord
  sensorHot : FaultRecord
  viewStale : FaultRecord
  viewLost : FaultRecord
  displayFreeze : FaultRecord
  displayLinkDown : FaultRecord
  tablePoisoned : FaultRecord
  frameStoreError : FaultRecord
  deriving DecidableEq, Repr

namespace SideRecords

/-- The record of a class. -/
def get (r : SideRecords) : SideClass → FaultRecord
  | .sensorLoss => r.sensorLoss
  | .sensorFrame => r.sensorFrame
  | .exposureMismatch => r.exposureMismatch
  | .sensorBus => r.sensorBus
  | .sensorHot => r.sensorHot
  | .viewStale => r.viewStale
  | .viewLost => r.viewLost
  | .displayFreeze => r.displayFreeze
  | .displayLinkDown => r.displayLinkDown
  | .tablePoisoned => r.tablePoisoned
  | .frameStoreError => r.frameStoreError

/-- The records with one replaced. -/
def set (r : SideRecords) (c : SideClass) (a : FaultRecord) : SideRecords :=
  match c with
  | .sensorLoss => { r with sensorLoss := a }
  | .sensorFrame => { r with sensorFrame := a }
  | .exposureMismatch => { r with exposureMismatch := a }
  | .sensorBus => { r with sensorBus := a }
  | .sensorHot => { r with sensorHot := a }
  | .viewStale => { r with viewStale := a }
  | .viewLost => { r with viewLost := a }
  | .displayFreeze => { r with displayFreeze := a }
  | .displayLinkDown => { r with displayLinkDown := a }
  | .tablePoisoned => { r with tablePoisoned := a }
  | .frameStoreError => { r with frameStoreError := a }

/-- Eleven equal records. -/
def replicate (a : FaultRecord) : SideRecords :=
  { sensorLoss := a, sensorFrame := a, exposureMismatch := a, sensorBus := a, sensorHot := a, viewStale := a, viewLost := a,
    displayFreeze := a, displayLinkDown := a, tablePoisoned := a, frameStoreError := a }

end SideRecords

/-- The 24 fault records (R176). -/
structure FaultTable where
  sides : Sided SideRecords
  panInputStale : FaultRecord
  errorCorrected : FaultRecord
  deriving DecidableEq, Repr

namespace FaultTable

/-- One record. -/
def get (f : FaultTable) : RecordId → FaultRecord
  | .side c x => (f.sides.get x).get c
  | .part .panInputStale => f.panInputStale
  | .part .errorCorrected => f.errorCorrected

/-- The table with one record replaced. -/
def set (f : FaultTable) (i : RecordId) (a : FaultRecord) : FaultTable :=
  match i with
  | .side c x => { f with sides := f.sides.set x ((f.sides.get x).set c a) }
  | .part .panInputStale => { f with panInputStale := a }
  | .part .errorCorrected => { f with errorCorrected := a }

end FaultTable

/-! ## Links and directives -/

/-- The link state (R191). -/
inductive LinkState where
  | down
  | training
  | up
  deriving DecidableEq, Repr

/-- The reasons of a REFUSED reply (R197). -/
inductive Reason where
  | unknownDirective
  | badArgument
  | locked
  | pending
  | wrongState
  | noSpace
  | notActive
  | badContent
  | tableError
  deriving DecidableEq, Repr

/-- The code of a reason (R210). -/
def Reason.code : Reason → Nat
  | .unknownDirective => 1
  | .badArgument => 2
  | .locked => 3
  | .pending => 4
  | .wrongState => 5
  | .noSpace => 6
  | .notActive => 7
  | .badContent => 8
  | .tableError => 9

/-- A reply that is ready to be sent (R197): its tag, DONE (no reason) or REFUSED with a reason, and its data words. -/
structure Reply where
  tag : BitVec 8
  reason : Option Reason
  data : List Word
  deriving DecidableEq, Repr

/-- An entry of a reply queue (R196): a ready reply, or the reservation of the pending commit of a side with its tag. -/
inductive ReplyEntry where
  | ready (r : Reply)
  | reserved (tag : BitVec 8) (commitOf : Side)
  deriving DecidableEq, Repr

/-- What a link sent forward in the latest line period (R131, R194): the packet of the period's slot, if any, as its words, and
the pixels of the active line. -/
structure Forward where
  period : Fin 1300
  packet : Option (List Word)
  pixels : List Pixel
  deriving DecidableEq, Repr

end Sys2Proof.Machine
end

