-- ==== Sys2Proof/Config.lean ====
section
/-! DEFINITION. The values the spec leaves open: opaque constants with no body, so that no proof can rest on one. The codes are
those of the enumerated values that R199 and R214 have a reply carry and to which R210 gives no code (log entry 1); `tieKey` is
the order in which expiries that fall together with the output timing are taken (log entry 2); `rewrittenWord` is the data of a pool
word that is rewritten unread with an uncorrectable error in it (log entry 9). -/

namespace Sys2Proof.Config

open Sys2Proof.Machine

/-- The code of a port state in a PART_STATE reply (R201, R214). DESIGN CHOICE: open in the spec, free here. -/
opaque portStateCode : PortState → Word

/-- The code of a link state in a PART_STATE reply (R201, R214). DESIGN CHOICE: open in the spec, free here. -/
opaque linkStateCode : LinkState → Word

/-- The code of a slot state in a SLOT_STATE reply (R128, R214). DESIGN CHOICE: open in the spec, free here. -/
opaque slotStateCode : SlotState → Word

/-- The code of a geometry tag in a SLOT_STATE reply (R128, R214). DESIGN CHOICE: open in the spec, free here. -/
opaque geometryCode : Geometry → Word

/-- The code of a clamp mark in a WINDOW_STATE reply (R106, R214). DESIGN CHOICE: open in the spec, free here. -/
opaque clampMarkCode : ClampMark → Word

/-- The code of a shadow state in a LOAD_TABLE or TABLE_STATE reply (R158, R173, R214). DESIGN CHOICE: open, free here. -/
opaque shadowStateCode : ShadowState → Word

/-- The code of a profile mode in a SET_PROFILE_MODE reply (R202, R214). DESIGN CHOICE: open in the spec, free here. -/
opaque profileModeCode : ProfileMode → Word

/-- The data written for a pool word whose entry is rewritten without having been read and whose stored bits hold an uncorrectable error
(R169, R170; log entry 9). DESIGN CHOICE: open in the spec, free here. -/
opaque rewrittenWord : BitVec 22 → Word

/-- The key that orders the events which the time base brings due at one tick (R9, R19, R101, R130). -/
opaque tieKey : Nat → Nat

end Sys2Proof.Config
end

