-- ==== Sys2Proof/Machine/Arith.lean ====
section
/-! DEFINITION. The part's arithmetic: limits, frame number order, the mantissa and log tables in ROM, and the log and power
functions of Exposure Control (R23 to R26). -/

namespace Sys2Proof.Machine

/-- clamp(v, lo, hi) of 00_scope.md: v limited to the range lo..hi. -/
def clamp (v lo hi : Int) : Int := max lo (min v hi)

/-- A count increased by 1, saturating. -/
def satSucc (n cap : Nat) : Nat := min (n + 1) cap

/-- A number as a 16-bit word. -/
def wordOf (n : Nat) : Word := BitVec.ofNat 16 n

/-- A signed number as a 16-bit word in two's complement (R210). -/
def wordOfInt (v : Int) : Word := BitVec.ofInt 16 v

/-- A flag as a word: 1 when set and 0 when clear (R214). -/
def wordOfBool (b : Bool) : Word := if b then 1 else 0

/-- A 32-bit value as two words, the low word first (R210). -/
def wordsOf32 (v : BitVec 32) : List Word := [v.setWidth 16, (v >>> 16).setWidth 16]

/-- Frame number `a` is later than frame number `b` (00_scope.md, Frame numbers). -/
def later (a b : FrameNo) : Bool :=
  let d := (a - b).toNat
  decide (1 ≤ d) && decide (d ≤ 32767)

/-- The ticks from `since` to `now`, modulo 2^32 (00_scope.md, Tick). -/
def ticksSince (now since : Tick) : Nat := (now - since).toNat

/-- Entries 0..63 of the mantissa table (R23). -/
def mantissaRows0 : List Nat :=
  [32768, 32857, 32946, 33035, 33125, 33215, 33305, 33395, 33486, 33576, 33667, 33759, 33850, 33942, 34034, 34126,
   34219, 34312, 34405, 34498, 34591, 34685, 34779, 34874, 34968, 35063, 35158, 35253, 35349, 35445, 35541, 35637,
   35734, 35831, 35928, 36025, 36123, 36221, 36319, 36417, 36516, 36615, 36715, 36814, 36914, 37014, 37114, 37215,
   37316, 37417, 37518, 37620, 37722, 37824, 37927, 38030, 38133, 38236, 38340, 38444, 38548, 38653, 38757, 38863]

/-- Entries 64..127 of the mantissa table (R23). -/
def mantissaRows1 : List Nat :=
  [38968, 39074, 39180, 39286, 39392, 39499, 39606, 39714, 39821, 39929, 40037, 40146, 40255, 40364, 40473, 40583,
   40693, 40804, 40914, 41025, 41136, 41248, 41360, 41472, 41584, 41697, 41810, 41923, 42037, 42151, 42265, 42380,
   42495, 42610, 42726, 42841, 42958, 43074, 43191, 43308, 43425, 43543, 43661, 43780, 43898, 44017, 44137, 44256,
   44376, 44497, 44617, 44738, 44859, 44981, 45103, 45225, 45348, 45471, 45594, 45718, 45842, 45966, 46091, 46216]

/-- Entries 128..191 of the mantissa table (R23). -/
def mantissaRows2 : List Nat :=
  [46341, 46467, 46593, 46719, 46846, 46973, 47100, 47228, 47356, 47484, 47613, 47742, 47871, 48001, 48131, 48262,
   48393, 48524, 48655, 48787, 48920, 49052, 49185, 49319, 49452, 49586, 49721, 49856, 49991, 50126, 50262, 50399,
   50535, 50672, 50810, 50947, 51085, 51224, 51363, 51502, 51642, 51782, 51922, 52063, 52204, 52346, 52488, 52630,
   52773, 52916, 53059, 53203, 53347, 53492, 53637, 53782, 53928, 54074, 54221, 54368, 54515, 54663, 54811, 54960]

/-- Entries 192..255 of the mantissa table (R23). -/
def mantissaRows3 : List Nat :=
  [55109, 55258, 55408, 55558, 55709, 55860, 56012, 56163, 56316, 56468, 56622, 56775, 56929, 57083, 57238, 57393,
   57549, 57705, 57861, 58018, 58176, 58333, 58491, 58650, 58809, 58968, 59128, 59289, 59449, 59611, 59772, 59934,
   60097, 60260, 60423, 60587, 60751, 60916, 61081, 61247, 61413, 61579, 61746, 61914, 62081, 62250, 62419, 62588,
   62757, 62928, 63098, 63269, 63441, 63613, 63785, 63958, 64132, 64306, 64480, 64655, 64830, 65006, 65182, 65359]

/-- The mantissa table mt (R23): mt[f] = round(32768 × 2^(f/256)). -/
def mantissaTable : List Nat := mantissaRows0 ++ mantissaRows1 ++ mantissaRows2 ++ mantissaRows3

/-- mt[f] (R23). -/
def mt (f : Nat) : Nat := mantissaTable.getD f 0

/-- The log table lg (R24): lg[i] = round(256 × log2(1 + i/64)). -/
def logTable : List Nat :=
  [0, 6, 11, 17, 22, 28, 33, 38, 44, 49, 54, 59, 63, 68, 73, 78,
   82, 87, 92, 96, 100, 105, 109, 113, 118, 122, 126, 130, 134, 138, 142, 146,
   150, 154, 157, 161, 165, 169, 172, 176, 179, 183, 186, 190, 193, 197, 200, 203,
   207, 210, 213, 216, 220, 223, 226, 229, 232, 235, 238, 241, 244, 247, 250, 253]

/-- lg[i] (R24). -/
def lg (i : Nat) : Nat := logTable.getD i 0

/-- The log of a level, L(M), for M in 0..4095 (R25). -/
def logLevel (m : Nat) : Nat :=
  let m := max m 1
  let p := Nat.log2 m
  let n := m * 2 ^ (11 - p)
  256 * p + lg ((n - 2048) / 32)

/-- The power of a step count, P(E), for E ≥ 0 (R26). -/
def powSteps (e : Nat) : Nat := mt (e % 256) * 2 ^ (e / 256) / 32768

end Sys2Proof.Machine
end

