-- ==== Sys2Proof/Machine/Ecc.lean ====
section
/-! DEFINITION. The SEC-DED code of both memories (R119, R120, R155, R156). A stored word has `n` bits at code positions 0..n-1; the
check bits stand at position 0 and at the powers of two, and data bits take the remaining positions in increasing order. With `c`
position check bits, n is 72 and c is 7 in the frame store, and n is 22 and c is 5 in the table store. -/

namespace Sys2Proof.Machine

/-- The word whose bit i is `f i`. -/
def bitsOf : (n : Nat) → (Nat → Bool) → BitVec n
  | 0, _ => 0#0
  | n + 1, f => BitVec.cons (f n) (bitsOf n f)

/-- The exclusive-or of `f` over positions 0..n-1. -/
def xorBelow : (n : Nat) → (Nat → Bool) → Bool
  | 0, _ => false
  | n + 1, f => xor (xorBelow n f) (f n)

/-- A position of a check bit: 0 or a power of two (R120, R156). -/
def isCheckPos (p : Nat) : Bool := p &&& (p - 1) == 0

/-- The data bit at a code position that holds data: of the positions below p, position 0 and the powers of two up to p hold check
bits. -/
def dataIndex (p : Nat) : Nat := p - 2 - Nat.log2 p

/-- The positions that hold data, in increasing order. -/
def dataPositions (n : Nat) : List Nat := (List.range n).filter (fun p => !isCheckPos p)

/-- Position check bit i: the exclusive-or of the bits at every position whose binary value has bit i set. -/
def parityAt (n i : Nat) (w : Nat → Bool) : Bool := xorBelow n (fun p => p.testBit i && w p)

/-- The bit at a position before the overall check bit is chosen: data, or a position check bit that makes its own parity 0. -/
def bodyBit {k : Nat} (n : Nat) (d : BitVec k) (p : Nat) : Bool :=
  if p = 0 then false
  else if isCheckPos p then
    parityAt n (Nat.log2 p) (fun q => !isCheckPos q && d.getLsbD (dataIndex q))
  else d.getLsbD (dataIndex p)

/-- The stored word of `n` bits for data `d` (R119, R155). -/
def encodeWord {k : Nat} (n : Nat) (d : BitVec k) : BitVec n :=
  let body := bitsOf n (bodyBit n d)
  bitsOf n (fun p => if p = 0 then xorBelow n (fun q => body.getLsbD q) else body.getLsbD p)

/-- The data bits of a stored word. -/
def dataOf {n : Nat} (k : Nat) (w : BitVec n) : BitVec k :=
  let bits := (dataPositions n).map (fun p => w.getLsbD p)
  bitsOf k (fun j => bits.getD j false)

/-- The syndrome of a word as read: bit i for i < c is the parity of the positions with bit i set, and bit c is the parity of all
the bits (R120, R156). -/
def syndrome {n : Nat} (c : Nat) (w : BitVec n) : Nat :=
  (bitsOf (c + 1) (fun i => if i < c then parityAt n i (fun p => w.getLsbD p) else xorBelow n (fun p => w.getLsbD p))).toNat

/-- The result of checking a word as read (R120, R156). -/
inductive WordCheck (n : Nat) where
  | clean
  | corrected (syndrome : Nat) (word : BitVec n)
  | uncorrectable (syndrome : Nat)
  deriving DecidableEq, Repr

/-- The check of a word as read: syndrome 0 is clean, syndrome 2^c + p corrects position p, any other is uncorrectable. -/
def checkWord {n : Nat} (c : Nat) (w : BitVec n) : WordCheck n :=
  let y := syndrome c w
  if y = 0 then .clean
  else if 2 ^ c ≤ y ∧ y < 2 ^ c + n then .corrected y (w ^^^ (1#n <<< (y - 2 ^ c)))
  else .uncorrectable y

/-- The bits an injection flips in a word as read: data bit 0, at position 3, and for DOUBLE also data bit 1, at position 5
(R126, R172). -/
def InjKind.flips (n : Nat) : InjKind → BitVec n
  | .single => 1#n <<< 3
  | .double => (1#n <<< 3) ||| (1#n <<< 5)

end Sys2Proof.Machine
end

