-- ==== Sys2Proof/Machine/Memory.lean ====
section
/-! DEFINITION. An addressed memory of words: the frame store's DRAM (R117) and the table store (R155). A memory is the list of its
cells, addresses strictly rising, with no cell equal to what an unlisted address reads as. -/

namespace Sys2Proof.Machine

/-- A memory of `w`-bit words: (address, word) pairs. -/
abbrev Mem (w : Nat) := List (Nat × BitVec w)

/-- The word at an address; `dflt` says what an unlisted address reads as. -/
def Mem.read {w : Nat} (dflt : Nat → BitVec w) (m : Mem w) (a : Nat) : BitVec w :=
  (m.lookup a).getD (dflt a)

/-- The cells that a run of words from an address adds: those that differ from what an unlisted address reads as. -/
def Mem.newCells {w : Nat} (dflt : Nat → BitVec w) : Nat → List (BitVec w) → Mem w
  | _, [] => []
  | a, v :: vs => if v = dflt a then Mem.newCells dflt (a + 1) vs else (a, v) :: Mem.newCells dflt (a + 1) vs

/-- The memory after the words are written to consecutive addresses from `base`. -/
def Mem.writeBlock {w : Nat} (dflt : Nat → BitVec w) (m : Mem w) (base : Nat) (vs : List (BitVec w)) : Mem w :=
  m.filter (fun c => decide (c.1 < base)) ++ Mem.newCells dflt base vs ++
    m.filter (fun c => decide (base + vs.length ≤ c.1))

/-- The memory after one word is written. -/
def Mem.write {w : Nat} (dflt : Nat → BitVec w) (m : Mem w) (a : Nat) (v : BitVec w) : Mem w :=
  Mem.writeBlock dflt m a [v]

/-- The addresses of the cells rise strictly. -/
def Mem.sorted {w : Nat} : Mem w → Bool
  | [] => true
  | [_] => true
  | a :: b :: m => decide (a.1 < b.1) && Mem.sorted (b :: m)

/-- The canonical form: addresses strictly rising, no cell equal to what an unlisted address reads as. -/
def Mem.wf {w : Nat} (dflt : Nat → BitVec w) (m : Mem w) : Bool :=
  Mem.sorted m && m.all (fun c => decide (c.2 ≠ dflt c.1))

/-- Every cell stands at an address below `size`. -/
def Mem.within {w : Nat} (size : Nat) (m : Mem w) : Bool := m.all (fun c => decide (c.1 < size))

end Sys2Proof.Machine
end

