-- ==== Sys2Proof/Machine/Rom.lean ====
section
/-! DEFINITION. The ROM defaults of the tables (R87, R98, R163) in the word order of R213, what an unlisted address of each memory
reads as, and the typed reading of a table's words (R43, R96, R160, R213). -/

namespace Sys2Proof.Machine

/-! ## ROM defaults -/

/-- The TONE default, all four instances (R163). -/
def romTone : List Word :=
  (List.range 65).map (fun k => wordOf (if k ≤ 16 then 32 * k else min 1023 (512 + 32 * (k - 16) / 3)))

/-- The PROFILE defaults (R163); words 14 and 15 are spare (log entry 4). -/
def romProfile : Bank → List Word
  | 0 => [0, 2560, 16, 8, 128, 1200, 256, 0, 0, 400, 6, 4, 1, 2, 0, 0]
  | 1 => [1, 2432, 16, 8, 128, 2000, 384, 0, wordOfInt (-256), 400, 6, 4, 1, 2, 0, 0]
  | 2 => [2, 2304, 24, 6, 96, 4000, 512, 1, wordOfInt (-384), 400, 6, 3, 2, 10, 0, 0]
  | 3 => [3, 2560, 16, 8, 128, 4000, 256, 0, 0, 400, 6, 4, 1, 2, 0, 0]

/-- The LADDER default (R163). -/
def romLadder : List Word :=
  [wordOfInt (-900), wordOfInt (-700), wordOfInt (-1600), wordOfInt (-1400), 30, 0]

/-- The GLARE_ATT default (R87). -/
def romGlareAtt : List Word :=
  [0, -32, -64, -112, -160, -224, -288, -352, -448, -544, -640, -768, -896, -1024, -1152, -1280].map wordOfInt

/-- The PAN default: node[k] = 10k (R98). -/
def romPan : List Word := (List.range 19).map (fun k => wordOf (10 * k))

/-- The LAYOUT default of a side (R98). -/
def romLayout (x : Side) : List Word :=
  [800, 120, 240, 720, 800, 0, 320, 960, 960, 360, 440, 240, 400, 240, 480, 480, 480] ++
  [match x with | .left => wordOfInt (-1) | .right => 1] ++
  [60, 60, 16, 0] ++ List.replicate 16 0 ++ [6000, 3, 10, 4, 180, 0, 0, 0, 0, 0]

/-- The SENSOR default (R163): N_lat 2 and device address 0x2C in word 0. -/
def romSensor : List Word :=
  [0x2C02, 4000, 12, 64, 72, 96, 160, 0, 224, 10000, 0x4A10, 0x4A14]

/-- The ROM default of a table of a side (R163). -/
def romTable (x : Side) : TableId → List Word
  | .tone0 => romTone
  | .tone1 => romTone
  | .tone2 => romTone
  | .tone3 => romTone
  | .profile0 => romProfile 0
  | .profile1 => romProfile 1
  | .profile2 => romProfile 2
  | .profile3 => romProfile 3
  | .ladder => romLadder
  | .glareAtt => romGlareAtt
  | .pan => romPan
  | .layout => romLayout x
  | .sensor => romSensor

/-- The ROM defaults of a side's 13 tables. -/
def romTables (x : Side) : PerTable (List Word) := PerTable.ofFn (romTable x)

/-- The words of one bank block at reset, in offset order (R153, R154). -/
def romBlock (x : Side) : List Word := (TableId.all.map (romTable x)).flatten

/-! ## Memories -/

/-- The number of words of the frame store (R117). -/
def frameStoreSize : Nat := 2073600

/-- The number of words of the table store (R155). -/
def tableStoreSize : Nat := 10240

/-- What an unlisted address of the frame store reads as: a word of zeros. DESIGN CHOICE: the DRAM is not initialised (R116), and
no word is read before it is written (log entry 5). -/
def frameDefault (_ : Nat) : BitVec 72 := 0#72

/-- What an unlisted address of the table store reads as: in the bank blocks the ROM default with correct check bits (R154, R155), in
the pool and the unused addresses a word of zeros (log entry 5). -/
def tableDefault (a : Nat) : BitVec 22 :=
  if a < 1024 then encodeWord 22 ((romBlock .left).getD (a % 512) 0)
  else if a < 2048 then encodeWord 22 ((romBlock .right).getD (a % 512) 0)
  else 0#22

/-! ## The words of a table -/

/-- Word j of a table, unsigned (R210). -/
def numAt (t : List Word) (j : Nat) : Nat := (t.getD j 0).toNat

/-- Word j of a table, signed (R210). -/
def intAt (t : List Word) (j : Nat) : Int := (t.getD j 0).toInt

/-- A profile record (R43). -/
structure Profile where
  toneSlot : Nat
  lTarget : Int
  deadband : Int
  damping : Int
  maxStep : Int
  imax : Nat
  dMax : Nat
  glareEnable : Bool
  tGlare : Int
  zoneThreshold : Nat
  maxLit : Nat
  attack : Nat
  release : Nat
  hold : Nat
  deriving DecidableEq, Repr

/-- The profile record in a PROFILE table's words (R213). -/
def readProfile (t : List Word) : Profile :=
  { toneSlot := numAt t 0, lTarget := numAt t 1, deadband := numAt t 2, damping := numAt t 3, maxStep := numAt t 4,
    imax := numAt t 5, dMax := numAt t 6, glareEnable := decide (numAt t 7 = 1), tGlare := intAt t 8,
    zoneThreshold := numAt t 9, maxLit := numAt t 10, attack := numAt t 11, release := numAt t 12, hold := numAt t 13 }

/-- A ladder record (R44). -/
structure Ladder where
  dayToDusk : Int
  duskToDay : Int
  duskToNight : Int
  nightToDusk : Int
  dwell : Nat
  deriving DecidableEq, Repr

/-- The ladder record in a LADDER table's words (R213). -/
def readLadder (t : List Word) : Ladder :=
  { dayToDusk := intAt t 0, duskToDay := intAt t 1, duskToNight := intAt t 2, nightToDusk := intAt t 3, dwell := numAt t 4 }

/-- A marker record (R72). -/
structure Marker where
  wide : Bool
  row : Nat
  colour : Nat
  thickness : Nat
  deriving DecidableEq, Repr

/-- A layout record (R96, R142). -/
structure Layout where
  mainH : Nat
  mainHome : Window
  wide : Window
  mainRequired : Window
  wideRequired : Window
  outward : Int
  axMax : Int
  ayMax : Int
  panRate : Nat
  markers : List Marker
  ageLimit : Nat
  caution : Nat
  blank : Nat
  recovery : Nat
  startLimit : Nat
  deriving DecidableEq, Repr

/-- The window in four consecutive words. -/
def windowAt (t : List Word) (j : Nat) : Window :=
  { x := numAt t j, y := numAt t (j + 1), w := numAt t (j + 2), h := numAt t (j + 3) }

/-- Marker m of a LAYOUT table's words (R213). -/
def markerAt (t : List Word) (m : Nat) : Marker :=
  let v := t.getD (23 + 2 * m) 0
  { row := numAt t (22 + 2 * m), colour := (v.extractLsb' 0 2).toNat, thickness := (v.extractLsb' 4 3).toNat,
    wide := decide ((v.extractLsb' 8 2).toNat = 1) }

/-- The layout record in a LAYOUT table's words (R213). -/
def readLayout (t : List Word) : Layout :=
  { mainH := numAt t 0, mainHome := windowAt t 1, wide := windowAt t 5, mainRequired := windowAt t 9,
    wideRequired := windowAt t 13, outward := intAt t 17, axMax := numAt t 18, ayMax := numAt t 19, panRate := numAt t 20,
    markers := (List.range (min 8 (numAt t 21))).map (markerAt t), ageLimit := numAt t 38, caution := numAt t 39,
    blank := numAt t 40, recovery := numAt t 41, startLimit := numAt t 42 }

/-- A sensor record (R28, R160). -/
structure Sensor where
  nLat : Nat
  device : BitVec 8
  imaxHw : Nat
  gainMax : Nat
  black : TempClass → Nat
  wbR : Int
  wbG : Int
  wbB : Int
  lossTimeout : Nat
  integRegister : Word
  gainRegister : Word

/-- The device address in word 0 of a SENSOR table (R213). -/
def deviceOf (v : Word) : BitVec 8 := v.extractLsb' 8 8

/-- The sensor record in a SENSOR table's words (R213). -/
def readSensor (t : List Word) : Sensor :=
  { nLat := ((t.getD 0 0).extractLsb' 0 8).toNat, device := deviceOf (t.getD 0 0), imaxHw := numAt t 1, gainMax := numAt t 2,
    black := fun c => numAt t (3 + c.code), wbR := intAt t 6, wbG := intAt t 7, wbB := intAt t 8,
    lossTimeout := numAt t 9, integRegister := t.getD 10 0, gainRegister := t.getD 11 0 }

/-! ## Content checks at COMMIT -/

/-- One content check of R97 or R160: how many of the table's words have to be read before it can be made, what the words must
meet, and the word index named when they do not. -/
structure ContentCheck where
  needs : Nat
  passes : List Word → Bool
  index : Nat

/-- Word j lies in lo..hi, unsigned. -/
def inRange (j lo hi : Nat) : ContentCheck :=
  { needs := j + 1, passes := fun t => decide (lo ≤ numAt t j) && decide (numAt t j ≤ hi), index := j }

/-- Word j lies in lo..hi, signed. -/
def inRangeSigned (j : Nat) (lo hi : Int) : ContentCheck :=
  { needs := j + 1, passes := fun t => decide (lo ≤ intAt t j) && decide (intAt t j ≤ hi), index := j }

/-- Node k lies in 0..top and is not below the node before it (TONE and PAN of R160). -/
def nodeCheck (top k : Nat) : ContentCheck :=
  { needs := k + 1,
    passes := fun t => decide (numAt t k ≤ top) && (decide (k = 0) || decide (numAt t (k - 1) ≤ numAt t k)), index := k }

/-- The window is not empty and lies in the 960 × 1280 grid (R97). -/
def Window.inGrid (v : Window) : Bool :=
  decide (1 ≤ v.w) && decide (1 ≤ v.h) && decide (v.x + v.w ≤ 960) && decide (v.y + v.h ≤ 1280)

/-- The region is not empty and lies in the window (R97). -/
def Window.within (r v : Window) : Bool :=
  decide (1 ≤ r.w) && decide (1 ≤ r.h) && decide (v.x ≤ r.x) && decide (r.x + r.w ≤ v.x + v.w) &&
    decide (v.y ≤ r.y) && decide (r.y + r.h ≤ v.y + v.h)

/-- hstep of a window (R70). -/
def hstepOf (v : Window) : Nat := 1024 * v.w / 720

/-- vstep of a window in a pane of a height (R70). -/
def vstepOf (v : Window) (paneH : Nat) : Nat := 1024 * v.h / paneH

/-- Both steps lie in 1024..3072 (R97). -/
def stepsInRange (v : Window) (paneH : Nat) : Bool :=
  decide (1024 ≤ hstepOf v) && decide (hstepOf v ≤ 3072) && decide (1024 ≤ vstepOf v paneH) && decide (vstepOf v paneH ≤ 3072)

/-- Marker m, if the marker count takes it in, has a pane, a cell row, a colour and a thickness of R97. The marker check names the
marker count, its first field. -/
def markerCheck (m : Nat) : ContentCheck :=
  { needs := 24 + 2 * m,
    passes := fun t =>
      let v := t.getD (23 + 2 * m) 0
      decide (numAt t 21 ≤ m) ||
        (decide ((v.extractLsb' 8 2).toNat ≤ 1) && decide (numAt t (22 + 2 * m) ≤ 1279) &&
          decide (1 ≤ (v.extractLsb' 4 3).toNat) && decide ((v.extractLsb' 4 3).toNat ≤ 4)),
    index := 21 }

/-- The checks of a LAYOUT table, in order (R97). Each names the word of the first field it names (log entry 6). -/
def layoutChecks : List ContentCheck :=
  [{ needs := 1, passes := fun t => decide (640 ≤ numAt t 0) && decide (numAt t 0 ≤ 960) && decide (numAt t 0 % 8 = 0), index := 0 },
   { needs := 5, passes := fun t => (windowAt t 1).inGrid, index := 3 },
   { needs := 9, passes := fun t => (windowAt t 5).inGrid, index := 7 },
   { needs := 13, passes := fun t => (windowAt t 9).within (windowAt t 1), index := 11 },
   { needs := 17, passes := fun t => (windowAt t 13).within (windowAt t 5), index := 15 },
   { needs := 17, passes := fun t => stepsInRange (windowAt t 1) (numAt t 0), index := 3 },
   { needs := 17, passes := fun t => stepsInRange (windowAt t 5) (1280 - numAt t 0), index := 7 },
   { needs := 18, passes := fun t => decide (intAt t 17 = 1) || decide (intAt t 17 = -1), index := 17 },
   { needs := 20, passes := fun t => decide (numAt t 18 ≤ 120) && decide (numAt t 19 ≤ 120), index := 18 },
   inRange 20 1 32, inRange 21 0 8] ++
  (List.range 8).map markerCheck ++
  [inRange 38 2000 20000, inRange 39 1 30,
   { needs := 41, passes := fun t => decide (numAt t 39 + 1 ≤ numAt t 40) && decide (numAt t 40 ≤ 60), index := 40 },
   inRange 41 1 30, inRange 42 30 600]

/-- The checks of a kind of table, in order (R160). -/
def contentChecks : TableKind → List ContentCheck
  | .tone => (List.range 65).map (nodeCheck 1023)
  | .profile =>
    [inRange 0 0 3, inRange 1 1024 3072, inRange 2 0 128, inRange 3 1 16, inRange 4 16 512, inRange 5 1 4000, inRange 6 0 512,
     inRange 7 0 1, inRangeSigned 8 (-1024) 2048, inRange 9 1 6400, inRange 10 1 192, inRange 11 1 15, inRange 12 1 15,
     inRange 13 0 255]
  | .ladder =>
    [{ needs := 2, passes := fun t => decide (intAt t 0 < intAt t 1), index := 0 },
     { needs := 4, passes := fun t => decide (intAt t 2 < intAt t 3), index := 2 }, inRange 4 1 255]
  | .glareAtt =>
    (List.range 16).map (fun i =>
      { needs := i + 1,
        passes := fun t =>
          if i = 0 then decide (intAt t 0 = 0)
          else decide (-2048 ≤ intAt t i) && decide (intAt t i ≤ 0) && decide (intAt t i ≤ intAt t (i - 1)),
        index := i })
  | .pan => (List.range 19).map (nodeCheck 240)
  | .layout => layoutChecks
  | .sensor =>
    [{ needs := 1, passes := fun t => decide (1 ≤ (readSensor t).nLat) && decide ((readSensor t).nLat ≤ 3), index := 0 },
     inRange 1 1 4000, inRange 2 0 16, inRange 3 0 1023, inRange 4 0 1023, inRange 5 0 1023, inRangeSigned 6 (-256) 768,
     inRangeSigned 7 (-256) 768, inRangeSigned 8 (-256) 768, inRange 9 2000 50000]

end Sys2Proof.Machine
end

