-- ==== Sys2Proof/Machine/State.lean ====
section
/-! DEFINITION. The state of the part: every block's state as its chapter gives it, the words of the two memories, the queue of
waiting commands, and State.reset, the part at the end of power-on reset (R209). Plain data throughout. -/

namespace Sys2Proof.Machine

/-- The sensor port of a side (R2, R5, R6, R8, R10, R11, R13, R14). -/
structure Port where
  state : PortState
  phase : RxPhase
  /-- Lines received in the present phase (R2, R3). -/
  lineCount : Nat
  /-- The status lines kept of the frame being opened (R3). -/
  statusLines : List (List Sample)
  badCount : Nat
  goodCount : Nat
  /-- The line index kept at the latest malformation (R5). -/
  malformIndex : Option Nat
  /-- F_cur (R6). -/
  fcur : Option FrameNo
  /-- The tick of the last frame start (R6). -/
  lastStart : Tick
  lastTemp : Option Int
  tempClass : TempClass
  frameCond : Bool
  lossCond : Bool
  hotCond : Bool
  deriving DecidableEq, Repr

/-- The sensor bus master of a side (R15, R18, R19, R21, R22). -/
structure Bus where
  /-- The write buffer, head first. -/
  buffer : List WriteEntry
  state : BusState
  attempts : Nat
  groupCounter : BitVec 8
  busCond : Bool
  /-- The open write transaction. -/
  transaction : Option Transaction
  /-- The tick at which the response timer of the attempt started. -/
  timerStart : Tick
  /-- The head is finishing its attempt after a side restart (R22). -/
  finishing : Bool
  deriving DecidableEq, Repr

/-- The exposure unit of a side (R27, R29 to R32, R39, R41, section 2.6, R48). -/
structure Exposure where
  inForce : Option ExpRecord
  pendingQueue : List PendingEntry
  outstanding : List OutstandingItem
  mismatchCount : Nat
  mismatchCond : Bool
  mode : ProfileMode
  bank : Bank
  scheduled : Option Bank
  dwell : Nat
  direction : Option Bank
  trim : Int
  deriving DecidableEq, Repr

/-- The frame inputs of the developer (R52, R54), with the bank in force for the frame. -/
structure FrameInputs where
  exposure : ExpRecord
  bank : Bank
  tempClass : TempClass
  /-- The active defect set (R58): rows and columns. -/
  defects : List (Nat × Nat)
  attenuations : List Int
  main : Window
  wide : Window
  slot : Option SlotNo
  deriving DecidableEq, Repr

/-- The developer of a side (R52). The phase is DEVELOPING exactly while `frame` holds a frame number. -/
structure Developer where
  frame : Option FrameNo
  copies : Option (PerTable (List Word))
  geometry : Option Geometry
  inputs : Option FrameInputs
  /-- The 192 zone accumulators, zone (zc, zr) at 12 zr + zc. -/
  zones : List ZoneAcc
  edits : List DefectEdit
  /-- The newest sample rows after black level, newest first, as far back as defect replacement reaches (R62 to R64). -/
  recent : List (List Nat)
  deriving DecidableEq, Repr

/-- The glare unit of a side (R79); zone (zc, zr) at 12 zr + zc. -/
structure Glare where
  zones : List GlareZone
  handed : Option (List Int)
  lastUpdate : Option GlareUpdate
  deriving DecidableEq, Repr

/-- The framing unit of a side (R95). -/
structure Framing where
  aimDx : Int
  aimDy : Int
  panTarget : Nat
  panCur : Nat
  windows : Option FrameWindows
  deriving DecidableEq, Repr

/-- The part of the frame store controller that belongs to a side (R109, R123). -/
structure SideStore where
  slots : Slots
  cleanCount : Nat
  fseCond : Bool
  /-- The present output frame has had an uncorrectable read (R123). -/
  frameDirty : Bool
  deriving DecidableEq, Repr

/-- The output composer of a side (R132, R146). -/
structure Composer where
  frameCount : BitVec 32
  mode : OutputMode
  requested : OutputMode
  view : ViewState
  repeatCount : Nat
  startCount : Nat
  recovery : Nat
  content : Option Content
  warning : Option Overlay
  status : Option StatusWord
  silence : Nat
  lagStrikes : Nat
  goodChecks : Nat
  staleCond : Bool
  lostCond : Bool
  freezeCond : Bool
  /-- The frame header packet composed for line period 0 of the present output frame (R146). -/
  header : Option (List Word)
  deriving DecidableEq, Repr

/-- The part of the table store that belongs to a side (R154, R161, R164, R166). -/
structure SideTables where
  ctl : PerTable TableCtl
  commit : Option PendingCommit
  /-- The length of the side's defect list. -/
  defectCount : Nat
  defectLoss : Bool
  poisonCond : Bool
  deriving DecidableEq, Repr

/-- The state that exists once for each side. `history` is the frame history, newest first (R6). -/
structure SideState where
  port : Port
  history : List FrameRecord
  /-- The serial number of the next frame record: the model's name for it (R109, R115). -/
  nextSerial : Nat
  bus : Bus
  exposure : Exposure
  dev : Developer
  glare : Glare
  framing : Framing
  store : SideStore
  comp : Composer
  tables : SideTables
  deriving DecidableEq, Repr

/-- A display link: its port (R191), the directive unit's reply queue and overrun flag (R196), the fault table's mask and notice
queue (R182, R184), and what the link sent forward in the latest line period (R131, R194). -/
structure Link where
  state : LinkState
  beenUp : Bool
  linkCond : Bool
  replies : List ReplyEntry
  overrun : Bool
  mask : BitVec 13
  notices : List RecordId
  forward : Option Forward
  deriving DecidableEq, Repr

/-- The articulation record (R95). -/
structure Articulation where
  angle : Int
  tick : Tick
  stale : Bool
  deriving DecidableEq, Repr

/-- The frame store's DRAM, its error log, its injection and the client the DRAM port served last (R117, R118, R124, R126). -/
structure FrameStore where
  mem : Mem 72
  log : Option LogRecord
  injection : Option Injection
  lastServed : DramClient
  deriving DecidableEq, Repr

/-- The table store's words, its error log, its injection and the LEFT share of the defect pool (R155, R166, R171, R172). -/
structure TableStore where
  mem : Mem 22
  log : Option LogRecord
  injection : Option Injection
  leftShare : Nat
  deriving DecidableEq, Repr

/-- The four lock flags of the directive unit (R165, R206). -/
structure Locks where
  layout : Bool
  sensor : Bool
  pan : Bool
  defects : Bool
  deriving DecidableEq, Repr

/-- The output timing of the part (R130): the place of the present output frame in the cycle 1667, 1666, 1667, the ticks since its
start, and the next line period to start (0: the output frame start itself). -/
structure Timing where
  cycle : Fin 3
  elapsed : Nat
  nextPeriod : Nat
  deriving DecidableEq, Repr

/-- The state of the part. `pending` is the queue of waiting commands, first in first out; `ties` counts the uses of the free
value Config.tieKey; `opened` counts the write transactions opened on both buses, and numbers the next one (log entry 38). These three
are the model's own. -/
structure State where
  pending : List Instr
  /-- The reset input is asserted (R209). -/
  inReset : Bool
  tick : Tick
  timing : Timing
  ties : Nat
  opened : Nat
  sides : Sided SideState
  links : Sided Link
  artic : Articulation
  frameStore : FrameStore
  tableStore : TableStore
  /-- corr_cond (R123). -/
  corrCond : Bool
  locks : Locks
  faults : FaultTable
  deriving DecidableEq, Repr

/-- The reasons to stop with a fault: none. The spec gives every event of the part an effect in every state, so no meaning raises a
fault, and the type has no constructor. -/
inductive Fault where
  deriving DecidableEq, Repr

/-- The reasons to refuse a command. -/
inductive Refusal where
  /-- Raised by exec's arm of a command that has no meaning yet, by its mnemonic; safe, since the machine stops. Every command of
  this part has its meaning, so no arm raises it. -/
  | notModelled (mnemonic : String)
  deriving DecidableEq, Repr

/-! ## Power-on values -/

/-- The port after power-on reset (R14). The kept malformation index has no stated value: none (log entry 3). -/
def Port.reset : Port :=
  { state := .searching, phase := .closed, lineCount := 0, statusLines := [], badCount := 0, goodCount := 0,
    malformIndex := none, fcur := none, lastStart := 0, lastTemp := none, tempClass := .normal,
    frameCond := false, lossCond := false, hotCond := false }

/-- The bus master after power-on reset (R22). -/
def Bus.reset : Bus :=
  { buffer := [], state := .idle, attempts := 0, groupCounter := 0, busCond := false, transaction := none, timerStart := 0,
    finishing := false }

/-- The exposure unit after power-on reset (R50). -/
def Exposure.reset : Exposure :=
  { inForce := none, pendingQueue := [], outstanding := [], mismatchCount := 0, mismatchCond := false, mode := .auto, bank := 0,
    scheduled := none, dwell := 0, direction := none, trim := 0 }

/-- The 192 zone accumulators at zero (R65, R78). -/
def zeroZones : List ZoneAcc := List.replicate 192 { green := 0, bright := 0 }

/-- The developer after power-on reset (R78). -/
def Developer.reset : Developer :=
  { frame := none, copies := none, geometry := none, inputs := none, zones := zeroZones, edits := [], recent := [] }

/-- The glare unit after power-on reset, and after a side restart (R93, R94). -/
def Glare.reset : Glare :=
  { zones := List.replicate 192 { level := 0, hold := 0 }, handed := none, lastUpdate := none }

/-- The framing unit after power-on reset (R107). -/
def Framing.reset : Framing :=
  { aimDx := 0, aimDy := 0, panTarget := 0, panCur := 0, windows := none }

/-- A FREE slot with nothing in it. -/
def Slot.free : Slot := { state := .free, damaged := false, content := none }

/-- The side's slots and frame-store condition after power-on reset (R116, R123). -/
def SideStore.reset : SideStore :=
  { slots := { s0 := Slot.free, s1 := Slot.free, s2 := Slot.free }, cleanCount := 0, fseCond := false, frameDirty := false }

/-- The composer after power-on reset (R150). -/
def Composer.reset : Composer :=
  { frameCount := 0, mode := .live, requested := .live, view := .starting, repeatCount := 0, startCount := 0, recovery := 0,
    content := none, warning := none, status := none, silence := 0, lagStrikes := 0, goodChecks := 0,
    staleCond := false, lostCond := false, freezeCond := false, header := none }

/-- A table's control record after power-on reset (R154). -/
def TableCtl.reset : TableCtl := { active := .bank0, bad0 := none, bad1 := none, shadow := .stale }

/-- A side's part of the table store after power-on reset (R154, R174). -/
def SideTables.reset : SideTables :=
  { ctl := PerTable.ofFn (fun _ => TableCtl.reset), commit := none, defectCount := 0, defectLoss := false, poisonCond := false }

/-- A side after power-on reset. -/
def SideState.reset : SideState :=
  { port := Port.reset, history := [], nextSerial := 0, bus := Bus.reset, exposure := Exposure.reset, dev := Developer.reset,
    glare := Glare.reset, framing := Framing.reset, store := SideStore.reset, comp := Composer.reset,
    tables := SideTables.reset }

/-- The default notice mask: the classes of severity FAULT or CAUTION, codes 0..10 (R182). -/
def defaultMask : BitVec 13 := 0x07FF

/-- A link after power-on reset (R182, R189, R193). -/
def Link.reset : Link :=
  { state := .down, beenUp := false, linkCond := false, replies := [], overrun := false, mask := defaultMask, notices := [],
    forward := none }

/-- A fault record after power-on reset (R189). -/
def FaultRecord.reset : FaultRecord := { state := .clear, count := 0, firstActive := none, lastChange := none, detail := 0 }

/-- The fault records after power-on reset (R189). -/
def FaultTable.reset : FaultTable :=
  { sides := { left := SideRecords.replicate FaultRecord.reset, right := SideRecords.replicate FaultRecord.reset },
    panInputStale := FaultRecord.reset, errorCorrected := FaultRecord.reset }

/-- The part at the end of power-on reset (R209), before the first output frame start that falls at the same tick. -/
def State.reset : State :=
  { pending := [], inReset := false, tick := 0, timing := { cycle := 0, elapsed := 0, nextPeriod := 0 }, ties := 0, opened := 0,
    sides := { left := SideState.reset, right := SideState.reset },
    links := { left := Link.reset, right := Link.reset },
    artic := { angle := 0, tick := 0, stale := false },
    frameStore := { mem := [], log := none, injection := none, lastServed := .rightComposer },
    tableStore := { mem := [], log := none, injection := none, leftShare := 2048 },
    corrCond := false,
    locks := { layout := false, sensor := false, pan := false, defects := false },
    faults := FaultTable.reset }

/-! ## Reading and replacing one part of the state -/

/-- The state of one side. -/
def State.side (s : State) (x : Side) : SideState := s.sides.get x

/-- The state with one side changed by `f`. -/
def State.onSide (s : State) (x : Side) (f : SideState → SideState) : State :=
  { s with sides := s.sides.set x (f (s.sides.get x)) }

/-- One link. -/
def State.link (s : State) (l : Side) : Link := s.links.get l

/-- The state with one link changed by `f`. -/
def State.onLink (s : State) (l : Side) (f : Link → Link) : State :=
  { s with links := s.links.set l (f (s.links.get l)) }

end Sys2Proof.Machine
end

