-- ==== Sys2Proof/Machine/Ops.lean ====
section
/-! DEFINITION. The operations the blocks share: reports to the fault table and the notices they queue (R177, R178, R183, R184), the
checked reads of the two memories with their injections and error logs (R120 to R127, R156, R171, R172), and the working copies in
use. -/

namespace Sys2Proof.Machine

/-! ## Notices -/

/-- The mask admits the class of the record (R182). -/
def admits (mask : BitVec 13) (i : RecordId) : Bool := mask.getLsbD i.classCode

/-- A notice for the record is queued on the link, unless one is queued already (R184). -/
def Link.enqueue (l : Link) (i : RecordId) : Link :=
  if i ∈ l.notices then l else { l with notices := l.notices ++ [i] }

/-- The link is UP. -/
def State.isUp (s : State) (l : Side) : Bool := decide ((s.link l).state = .up)

/-- The routing of R183 sends notices of the record to the link. -/
def State.routesTo (s : State) (i : RecordId) (l : Side) : Bool :=
  match i with
  | .side _ x => if s.isUp x then decide (l = x) else decide (l = x.other) && s.isUp l
  | .part _ => s.isUp l

/-- A notice for the record is queued on a link whose mask admits it (R183, R184). -/
def State.queueOn (s : State) (l : Side) (i : RecordId) : State :=
  if admits (s.link l).mask i then s.onLink l (fun k => k.enqueue i) else s

/-- A notice for the record is queued on each link the routing gives (R183). -/
def State.notify (s : State) (i : RecordId) : State :=
  let toLeft := s.routesTo i .left
  let toRight := s.routesTo i .right
  let s := if toLeft then s.queueOn .left i else s
  if toRight then s.queueOn .right i else s

/-! ## Reports to the fault table -/

/-- The state with one fault record replaced. -/
def State.setRecord (s : State) (i : RecordId) (r : FaultRecord) : State := { s with faults := s.faults.set i r }

/-- A setting is reported for a record (R177). -/
def State.raise (s : State) (i : RecordId) (detail : Word) : State :=
  let r := s.faults.get i
  match r.state with
  | .clear =>
    (s.setRecord i
      { state := .active, count := satSucc r.count 255,
        firstActive := if r.count = 0 then some s.tick else r.firstActive,
        lastChange := some s.tick, detail := detail }).notify i
  | .active => s.setRecord i { r with detail := detail }
  | .acked => s.setRecord i { r with detail := detail }

/-- An end is reported for a record (R178). -/
def State.endFault (s : State) (i : RecordId) : State :=
  let r := s.faults.get i
  match r.state with
  | .clear => s
  | .active => (s.setRecord i { r with state := .clear, lastChange := some s.tick }).notify i
  | .acked => (s.setRecord i { r with state := .clear, lastChange := some s.tick }).notify i

/-- A corrected read of either memory sets ERROR_CORRECTED and corr_cond (R121, R123, R156). -/
def State.reportCorrected (s : State) (addr : Nat) : State :=
  ({ s with corrCond := true }).raise (.part .errorCorrected) (wordOf addr)

/-! ## Injection and error logs -/

/-- A read at an address is taken against an injection (R127, R172): the kind that fires, if it does, and the injection after. -/
def takeInjection (j : Option Injection) (addr : Nat) : Option InjKind × Option Injection :=
  match j with
  | none => (none, none)
  | some i =>
    match i.trigger with
    | .address a => if a = addr then (some i.kind, none) else (none, some i)
    | .count n => if i.reads + 1 = n then (some i.kind, none) else (none, some { i with reads := i.reads + 1 })

/-- The bits as read when an injection fires on the read, or does not (R127, R172). -/
def asRead {n : Nat} (fired : Option InjKind) (w : BitVec n) : BitVec n :=
  match fired with
  | none => w
  | some k => w ^^^ k.flips n

/-- An error is offered to an error log (R124, R171). -/
def offerLog (log : Option LogRecord) (e : LogRecord) : Option LogRecord :=
  match log with
  | none => some e
  | some h => if h.kind = .corrected ∧ e.kind = .uncorrectable then some e else some h

/-! ## The frame store's words -/

/-- The composer's client of the DRAM port (R118). -/
def composerOf : Side → DramClient
  | .left => .leftComposer
  | .right => .rightComposer

/-- The developer's client of the DRAM port (R118). -/
def developerOf : Side → DramClient
  | .left => .leftDeveloper
  | .right => .rightDeveloper

/-- The word address of word w of row y of a side's slot (R117). -/
def frameAddr (x : Side) (n : SlotNo) (y w : Nat) : Nat := 345600 * (3 * x.code + n.num) + 270 * y + w

/-- An error of a frame-store read is offered to the frame-store log (R124). -/
def State.offerFrame (s : State) (e : LogRecord) : State :=
  { s with frameStore := { s.frameStore with log := offerLog s.frameStore.log e } }

/-- The effect of an uncorrectable read of a word of a side's slot (R122). -/
def State.uncorrectableFrame (s : State) (x : Side) (n : SlotNo) (addr syn : Nat) : State :=
  let s := s.onSide x (fun d =>
    { d with store := { d.store with
        slots := d.store.slots.set n { d.store.slots.get n with damaged := true },
        cleanCount := 0, fseCond := true, frameDirty := true } })
  let s := s.offerFrame { kind := .uncorrectable, addr := addr, syndrome := syn, side := x }
  s.raise (.side .frameStoreError x) (wordOf addr)

/-- The composer of a side reads a word of its SHOWING slot through the DRAM port (R118, R120 to R122, R127): the data, or none
where the word is uncorrectable. -/
def State.readFrameWord (s : State) (x : Side) (n : SlotNo) (addr : Nat) : Option (BitVec 64) × State :=
  let j := takeInjection s.frameStore.injection addr
  let w := asRead j.1 (Mem.read frameDefault s.frameStore.mem addr)
  let s := { s with frameStore := { s.frameStore with injection := j.2, lastServed := composerOf x } }
  match checkWord 7 w with
  | .clean => (some (dataOf 64 w), s)
  | .corrected y v =>
    (some (dataOf 64 v),
      (s.offerFrame { kind := .corrected, addr := addr, syndrome := y, side := x }).reportCorrected addr)
  | .uncorrectable y => (none, s.uncorrectableFrame x n addr y)

/-- The developer of a side writes words to consecutive addresses of the frame store, with check bits (R119). -/
def State.writeFrameWords (s : State) (x : Side) (base : Nat) (vs : List (BitVec 64)) : State :=
  { s with frameStore := { s.frameStore with
      mem := Mem.writeBlock frameDefault s.frameStore.mem base (vs.map (encodeWord 72)),
      lastServed := developerOf x } }

/-! ## The table store's words -/

/-- The address of word j of a table in a physical bank (R155). -/
def tableAddr (x : Side) (t : TableId) (p : PhysBank) (j : Nat) : Nat := 512 * (2 * x.code + p.num) + t.offset + j

/-- The address of the first word of entry i of a side's defect list (R155). -/
def poolAddr (x : Side) (leftShare i : Nat) : Nat :=
  match x with
  | .left => 2048 + 2 * i
  | .right => 2048 + 2 * (leftShare + i)

/-- An error of a table-store read is offered to the table-store log (R171). -/
def State.offerTable (s : State) (e : LogRecord) : State :=
  { s with tableStore := { s.tableStore with log := offerLog s.tableStore.log e } }

/-- Words are written to consecutive addresses of the table store with correct check bits (R155). -/
def State.writeTableWords (s : State) (addr : Nat) (vs : List Word) : State :=
  { s with tableStore := { s.tableStore with
      mem := Mem.writeBlock tableDefault s.tableStore.mem addr (vs.map (encodeWord 22)) } }

/-- A read of one word of the table store (R156, R172): the data, or none where the word is uncorrectable. What an uncorrectable word
does further depends on the word and is the caller's. -/
def State.readTableWord (s : State) (x : Side) (addr : Nat) : Option Word × State :=
  let j := takeInjection s.tableStore.injection addr
  let w := asRead j.1 (Mem.read tableDefault s.tableStore.mem addr)
  let s := { s with tableStore := { s.tableStore with injection := j.2 } }
  match checkWord 5 w with
  | .clean => (some (dataOf 16 w), s)
  | .corrected y v =>
    let d : Word := dataOf 16 v
    let s := s.writeTableWords addr [d]
    (some d, (s.offerTable { kind := .corrected, addr := addr, syndrome := y, side := x }).reportCorrected addr)
  | .uncorrectable y => (none, s.offerTable { kind := .uncorrectable, addr := addr, syndrome := y, side := x })

/-! ## TABLE_POISONED -/

/-- The active bank of a table of the side is poisoned (R154). -/
def SideTables.activeBad (d : SideTables) (t : TableId) : Option Nat := (d.ctl.get t).bad (d.ctl.get t).active

/-- The lowest table whose active bank is poisoned. -/
def SideTables.firstActiveBad (d : SideTables) : Option TableId := TableId.all.find? (fun t => (d.activeBad t).isSome)

/-- TABLE_POISONED is set for the side and poison_cond is made set (R164). -/
def State.raisePoison (s : State) (x : Side) (detail : Nat) : State :=
  (s.onSide x (fun d => { d with tables := { d.tables with poisonCond := true } })).raise (.side .tablePoisoned x) (wordOf detail)

/-- TABLE_POISONED is ended if it is in force and neither an active bank nor the defect list of the side is bad (R162, R164,
R168). -/
def State.endPoisonIfHealed (s : State) (x : Side) : State :=
  let d := (s.side x).tables
  if d.poisonCond ∧ d.firstActiveBad = none ∧ d.defectLoss = false then
    (s.onSide x (fun d => { d with tables := { d.tables with poisonCond := false } })).endFault (.side .tablePoisoned x)
  else s

/-- Word j of a physical bank of a table is read (R155, R156); an uncorrectable word poisons the bank, and for the active bank sets
TABLE_POISONED with detail the table id (R164). -/
def State.readBankWord (s : State) (x : Side) (t : TableId) (p : PhysBank) (j : Nat) : Option Word × State :=
  let r := s.readTableWord x (tableAddr x t p j)
  match r.1 with
  | some v => (some v, r.2)
  | none =>
    let c := (r.2.side x).tables.ctl.get t
    let c' := if (c.bad p).isSome then c else c.setBad p (some j)
    let s := r.2.onSide x (fun d => { d with tables := { d.tables with ctl := d.tables.ctl.set t c' } })
    (none, if p = c.active then s.raisePoison x t.num else s)

/-! ## Working copies -/

/-- The working copies of the side's tables in use: those of the latest frame start, or the ROM defaults when the side has taken no
frame start since power-on reset (R53, R105, R113, R142). -/
def State.copies (s : State) (x : Side) : PerTable (List Word) := (s.side x).dev.copies.getD (romTables x)

/-- The layout record in use. -/
def State.layoutOf (s : State) (x : Side) : Layout := readLayout (s.copies x).layout

/-- The sensor record in use. -/
def State.sensorOf (s : State) (x : Side) : Sensor := readSensor (s.copies x).sensor

end Sys2Proof.Machine
end

