-- ==== Sys2Proof/Machine/Operands.lean ====
section
/-! DEFINITION. The operand fields of a directive packet (R198, R199, R211, R213) and the admission of directives (R195 to R198). -/

namespace Sys2Proof.Machine

/-! ## Operand fields -/

/-- A side field that names LEFT or RIGHT (R210). -/
def sideField (f : BitVec 2) : Option Side :=
  if f = 0 then some .left else if f = 1 then some .right else none

/-- The sides named by a side field that may be LEFT, RIGHT or BOTH, LEFT first (R210). -/
def sidesField (f : BitVec 2) : Option (List Side) :=
  if f = 0 then some [.left] else if f = 1 then some [.right] else if f = 2 then some [.left, .right] else none

/-- Bits `lo .. lo + n - 1` of a word, unsigned. -/
def field (w : Word) (lo n : Nat) : Nat := (w.extractLsb' lo n).toNat

/-- The table that a kind code and an instance name (R153, R158, R210). -/
def tableField (kind inst : Nat) : Option TableId :=
  match kind with
  | 0 => if inst ≤ 3 then some (TableId.tone inst) else none
  | 1 => if h : inst < 4 then some (TableId.profile ⟨inst, h⟩) else none
  | 2 => if inst = 0 then some .ladder else none
  | 3 => if inst = 0 then some .glareAtt else none
  | 4 => if inst = 0 then some .pan else none
  | 5 => if inst = 0 then some .layout else none
  | 6 => if inst = 0 then some .sensor else none
  | _ => none

/-- The output mode of a mode code (R203, R210). -/
def modeField (w : Word) : Option OutputMode :=
  if w = 0 then some .live else if w = 1 then some .pattern else if w = 2 then some .service else none

/-- The lock class of a class code (R206). -/
def lockField (w : Word) : Option LockClass :=
  if w = 0 then some .layout else if w = 1 then some .sensor else if w = 2 then some .pan
  else if w = 3 then some .defects else none

/-- The record that ACK_FAULT names by a class code and, for a side class, a side (R179). -/
def faultField (code : Word) (side : BitVec 2) : Option RecordId :=
  if code = 11 then some (.part .panInputStale)
  else if code = 12 then some (.part .errorCorrected)
  else
    match SideClass.all[code.toNat]?, sideField side with
    | some c, some x => some (.side c x)
    | _, _ => none

/-- The sites that argument words carry, two words each, as defect entries (R211, R213). -/
def sitesOf : List Word → List DefectEntry
  | a :: b :: ws =>
    { row := a.toNat, col := (b.extractLsb' 0 11).toNat, cls := b.extractLsb' 14 2 } :: sitesOf ws
  | _ => []

/-- The 32-bit value of two words, the low word first (R210). -/
def value32 (lo hi : Word) : Nat := lo.toNat + 65536 * hi.toNat

/-- The kind, trigger and value of an INJECT_ERROR for a memory of `size` words, where they are allowed (R126, R172, R207, R211). -/
def injectionField (size : Nat) (s0 : Word) (lo hi : Word) : Option Injection :=
  let v := value32 lo hi
  let kind := match field s0 4 2 with
    | 1 => some InjKind.single
    | 2 => some InjKind.double
    | _ => none
  let trigger := match field s0 8 2 with
    | 1 => if v < size then some (InjTrigger.address v) else none
    | 2 => if 1 ≤ v ∧ v ≤ 65535 then some (InjTrigger.count v) else none
    | _ => none
  match kind, trigger with
  | some k, some t => some { kind := k, trigger := t, reads := 0 }
  | _, _ => none

/-- The words that report an injection as armed: kind and trigger by their codes of R211, and the address or count (R207). -/
def injectionWords (j : Injection) : List Word :=
  let k : Word := match j.kind with
    | .single => 1
    | .double => 2
  match j.trigger with
  | .address a => [k, 1] ++ wordsOf32 (BitVec.ofNat 32 a)
  | .count n => [k, 2] ++ wordsOf32 (BitVec.ofNat 32 n)

/-! ## Responses and admission -/

/-- What becomes of an admitted directive's reservation (R197): a DONE or REFUSED reply at once, or the reservation of a pending
commit. -/
inductive Response where
  | done (data : List Word)
  | refused (reason : Reason) (data : List Word)
  | held (commitOf : Side)
  deriving DecidableEq, Repr

/-- The reply queue entry that a response makes of a reservation with a tag (R197). -/
def Response.entry (tag : BitVec 8) : Response → ReplyEntry
  | .done data => .ready { tag := tag, reason := none, data := data }
  | .refused q data => .ready { tag := tag, reason := some q, data := data }
  | .held x => .reserved tag x

/-- The response takes its place in the link's reply queue (R196, R197). -/
def State.respond (s : State) (l : Side) (tag : BitVec 8) (r : Response) : State :=
  s.onLink l (fun k => { k with replies := k.replies ++ [r.entry tag] })

/-- A directive packet on a link (R195, R196): nothing is handed on while the link is not UP; a packet that finds 8 entries in the
reply queue is discarded; any other is admitted, and `body` says what it does and answers. -/
def State.admission (s : State) (l : Side) (tag : BitVec 8) (body : State → Response × State) : State :=
  if s.isUp l then
    if (s.link l).replies.length < 8 then
      let r := body s
      r.2.respond l tag r.1
    else s.onLink l (fun k => { k with overrun := true })
  else s

/-- A directive with a known code (R198): the length field is checked before the directive's own rule. -/
def State.directive (s : State) (l : Side) (p : Packet) (body : State → Response × State) : State :=
  s.admission l p.tag (fun s =>
    if 32 < p.length.toNat ∨ p.length.toNat ≠ p.args.length then (.refused .badArgument [], s) else body s)

/-- A directive whose rule names no argument words (R198, R211). -/
def State.plainDirective (s : State) (l : Side) (p : Packet) (body : State → Response × State) : State :=
  s.directive l p (fun s => if p.args = [] then body s else (.refused .badArgument [], s))

/-- A READ_ITEM with an item code (R199): no argument words; the packet's item code is checked first. -/
def State.readItem (s : State) (l : Side) (p : Packet) (item : Word) (body : State → Response × State) : State :=
  s.plainDirective l p (fun s => if p.s0 = item then body s else (.refused .badArgument [], s))

/-- An event that reaches the part is taken unless the reset input is asserted (R209). -/
def State.take (s : State) (f : State → State) : Host.Outcome State Fault Refusal := .next (if s.inReset then s else f s)

/-- A step made on each of a list of sides, in order. -/
def State.forSides (s : State) (xs : List Side) (f : State → Side → State) : State := xs.foldl f s

end Sys2Proof.Machine
end

