-- ==== Sys2Proof/Machine/TableOps.lean ====
section
/-! DEFINITION. The table store's operations: read runs, working copies, validation and swap of a commit, and the defect lists (R53,
R57, R58, R153 to R169). -/

namespace Sys2Proof.Machine

/-! ## Working copies (R53, R157) -/

/-- Words of a bank are read in order, going on after an error (R157). -/
def State.readBankWords (x : Side) (t : TableId) (p : PhysBank) : List Nat → State → List (Option Word) × State
  | [], s => ([], s)
  | j :: js, s =>
    let r := s.readBankWord x t p j
    let rest := State.readBankWords x t p js r.2
    (r.1 :: rest.1, rest.2)

/-- The working copy of one table (R53, R164): the words of the active bank, or the ROM default where that bank is poisoned or becomes
poisoned by this read. A poisoned active bank is not read. -/
def State.copyTable (s : State) (x : Side) (t : TableId) : List Word × State :=
  let c := (s.side x).tables.ctl.get t
  match c.bad c.active with
  | some _ => (romTable x t, s)
  | none =>
    let r := State.readBankWords x t c.active (List.range t.words) s
    if r.1.all Option.isSome then (r.1.map (fun v => v.getD 0), r.2) else (romTable x t, r.2)

/-- The working copies of a list of tables, taken in order into `acc`. -/
def State.copyTables (x : Side) : List TableId → PerTable (List Word) → State → PerTable (List Word) × State
  | [], acc, s => (acc, s)
  | t :: ts, acc, s =>
    let r := s.copyTable x t
    State.copyTables x ts (acc.set t r.1) r.2

/-- The check of R164 at a frame start: a poisoned active bank or a lost defect entry that is not reported sets TABLE_POISONED. -/
def State.checkPoisonAtStart (s : State) (x : Side) : State :=
  let d := (s.side x).tables
  if d.poisonCond then s
  else
    match d.firstActiveBad with
    | some t => s.raisePoison x t.num
    | none => if d.defectLoss then s.raisePoison x 13 else s

/-! ## Commit (R159 to R162) -/

/-- The table ids of a set carried as bits (R211). -/
def namedTables (set : BitVec 13) : List TableId := TableId.all.filter (fun t => set.getLsbD t.num)

/-- What the validation of a table finds (R159). -/
inductive Verdict where
  | pass
  | badContent (t : TableId) (j : Nat)
  | tableError (t : TableId) (j : Nat)
  deriving DecidableEq, Repr

/-- The next `k` words of a bank are read after those already delivered; the first uncorrectable word stops the run and its index is
answered (R159). -/
def State.readOn (x : Side) (t : TableId) (p : PhysBank) : Nat → List Word → State → Except Nat (List Word) × State
  | 0, vs, s => (.ok vs, s)
  | k + 1, vs, s =>
    let r := s.readBankWord x t p vs.length
    match r.1 with
    | some v => State.readOn x t p k (vs ++ [v]) r.2
    | none => (.error vs.length, r.2)

/-- The checks of a table are made in order, each as soon as the words it needs have been read; a failed check or an uncorrectable
word stops the run; a table that passes is read to its end (R157, R159, R160). DESIGN CHOICE: log entry 21. -/
def State.runChecks (x : Side) (t : TableId) (p : PhysBank) : List ContentCheck → List Word → State → Verdict × State
  | [], vs, s =>
    let r := State.readOn x t p (t.words - vs.length) vs s
    match r.1 with
    | .ok _ => (.pass, r.2)
    | .error j => (.tableError t j, r.2)
  | c :: cs, vs, s =>
    let r := State.readOn x t p (c.needs - vs.length) vs s
    match r.1 with
    | .error j => (.tableError t j, r.2)
    | .ok vs => if c.passes vs then State.runChecks x t p cs vs r.2 else (.badContent t c.index, r.2)

/-- The named shadows are read and checked in id order, up to the first failure (R159). -/
def State.validate (x : Side) : List TableId → State → Verdict × State
  | [], s => (.pass, s)
  | t :: ts, s =>
    let c := (s.side x).tables.ctl.get t
    let r := State.runChecks x t c.active.other (contentChecks t.kind) [] s
    match r.1 with
    | .pass => State.validate x ts r.2
    | .badContent _ _ => r
    | .tableError _ _ => r

/-- The control record of a table after a swap: the role flag is inverted and the new shadow is STALE (R162). -/
def TableCtl.swapped (c : TableCtl) : TableCtl := { c with active := c.active.other, shadow := .stale }

/-- The control records after a swap of the named tables (R162). -/
def swapTables (set : BitVec 13) (ctl : PerTable TableCtl) : PerTable TableCtl :=
  PerTable.ofFn (fun t => if set.getLsbD t.num then (ctl.get t).swapped else ctl.get t)

/-- A reservation of the pending commit of side `x` is filled with its reply DONE, in its place (R162, R197). -/
def ReplyEntry.fill (x : Side) (data : List Word) : ReplyEntry → ReplyEntry
  | .ready r => .ready r
  | .reserved tag y => if y = x then .ready { tag := tag, reason := none, data := data } else .reserved tag y

/-- The word that reports a set of tables (R214). -/
def setWord (set : BitVec 13) : Word := set.setWidth 16

/-- The swap of a set of tables of a side, with the reply DONE if a link still holds the reservation (R162). -/
def State.swapSet (s : State) (x : Side) (c : PendingCommit) : State :=
  let s := s.onSide x (fun d =>
    { d with tables := { d.tables with ctl := swapTables c.tables d.tables.ctl, commit := none } })
  let s :=
    match c.link with
    | some l => s.onLink l (fun k => { k with replies := k.replies.map (ReplyEntry.fill x [setWord c.tables]) })
    | none => s
  s.endPoisonIfHealed x

/-- The pending commit of a side, if there is one, is swapped (R161, R162). -/
def State.swapPending (s : State) (x : Side) : State :=
  match (s.side x).tables.commit with
  | some c => s.swapSet x c
  | none => s

/-! ## Defect lists (R57, R155, R166 to R169) -/

/-- The entry in two pool words (R213). -/
def entryOfWords (a b : Word) : DefectEntry :=
  { row := a.toNat, col := (b.extractLsb' 0 11).toNat, cls := b.extractLsb' 14 2 }

/-- The two pool words of an entry; bits 11..13 of the second are 0 (R213). -/
def wordsOfEntry (e : DefectEntry) : List Word :=
  [wordOf e.row, wordOf (e.col % 2048 + 16384 * e.cls.toNat)]

/-- Entry i of a side's defect list is read, lower word first (R157): the entry, or none where a word is uncorrectable. -/
def State.readEntry (s : State) (x : Side) (i : Nat) : Option DefectEntry × State :=
  let at0 := poolAddr x s.tableStore.leftShare i
  let r0 := s.readTableWord x at0
  let r1 := r0.2.readTableWord x (at0 + 1)
  match r0.1, r1.1 with
  | some a, some b => (some (entryOfWords a b), r1.2)
  | _, _ => (none, r1.2)

/-- An entry is lost: the side's defect-loss flag is set, and TABLE_POISONED is set with detail 13 (R164, R169). -/
def State.loseEntry (s : State) (x : Side) : State :=
  (s.onSide x (fun d => { d with tables := { d.tables with defectLoss := true } })).raisePoison x 13

/-- The entries at the given indices are read in order; lost entries are left out (R169). -/
def State.readEntries (x : Side) : List Nat → State → List DefectEntry × State
  | [], s => ([], s)
  | i :: is, s =>
    let r := s.readEntry x i
    match r.1 with
    | some e =>
      let rest := State.readEntries x is r.2
      (e :: rest.1, rest.2)
    | none => State.readEntries x is (r.2.loseEntry x)

/-- The site of an entry comes before another in (row, column) order (R166). -/
def siteBefore (r1 c1 r2 c2 : Nat) : Bool := decide (r1 < r2) || (decide (r1 = r2) && decide (c1 < c2))

/-- The lower of two classes, NORMAL lowest (R57). -/
def lowerClass (a b : BitVec 2) : BitVec 2 := if a ≤ b then a else b

/-- ADD of a site to a list (R57). -/
def addSite (row col : Nat) (cls : BitVec 2) : List DefectEntry → List DefectEntry
  | [] => [{ row := row, col := col, cls := cls }]
  | e :: es =>
    if e.row = row ∧ e.col = col then { e with cls := lowerClass e.cls cls } :: es
    else if siteBefore row col e.row e.col then { row := row, col := col, cls := cls } :: e :: es
    else e :: addSite row col cls es

/-- REMOVE of a site from a list (R57). -/
def removeSite (row col : Nat) (es : List DefectEntry) : List DefectEntry :=
  es.filter (fun e => !(decide (e.row = row) && decide (e.col = col)))

/-- One edit is applied to a list (R57). -/
def applyEdit (es : List DefectEntry) : DefectEdit → List DefectEntry
  | .add row col cls => addSite row col cls es
  | .remove row col => removeSite row col es

/-- Edits are applied to a list in order (R57). -/
def applyEdits (es : List DefectEntry) (edits : List DefectEdit) : List DefectEntry := edits.foldl applyEdit es

/-- A site is on a list. -/
def listed (row col : Nat) (es : List DefectEntry) : Bool := es.any (fun e => decide (e.row = row) && decide (e.col = col))

/-- A list is written to the side's share from its first entry (R169). -/
def State.writeList (s : State) (x : Side) (es : List DefectEntry) : State :=
  (s.writeTableWords (poolAddr x s.tableStore.leftShare 0) (es.map wordsOfEntry).flatten).onSide x
    (fun d => { d with tables := { d.tables with defectCount := es.length } })

/-- A side's defect list is read whole, lost entries are removed, the edits are applied, and the list is written back if it lost an
entry or took an edit (R169). The list answered is the resulting one. -/
def State.readList (s : State) (x : Side) (edits : List DefectEdit) : List DefectEntry × State :=
  let n := (s.side x).tables.defectCount
  let r := State.readEntries x (List.range n) s
  let es := applyEdits r.1 edits
  if r.1.length < n ∨ edits ≠ [] then (es, r.2.writeList x es) else (es, r.2)

/-- The defect list of a side is read with its pending edits, which are then empty (R57, R78, R169). -/
def State.applyPendingEdits (s : State) (x : Side) : List DefectEntry × State :=
  let r := s.readList x (s.side x).dev.edits
  (r.1, r.2.onSide x (fun d => { d with dev := { d.dev with edits := [] } }))

/-- The defect-loss flag of a side is cleared by an accepted edit directive, and TABLE_POISONED ends with it if the side is healed
(R168). -/
def State.clearDefectLoss (s : State) (x : Side) : State :=
  if (s.side x).tables.defectLoss then
    (s.onSide x (fun d => { d with tables := { d.tables with defectLoss := false } })).endPoisonIfHealed x
  else s

/-- A side's share of the defect pool (R166). -/
def State.shareOf (s : State) : Side → Nat
  | .left => s.tableStore.leftShare
  | .right => 4096 - s.tableStore.leftShare

end Sys2Proof.Machine
end

