-- ==== Sys2Proof/Machine/Reports.lean ====
section
/-! DEFINITION. The data of the READ_ITEM replies (R49, R92, R106, R128, R129, R170, R173, R181, R200, R201, R210, R214). -/

namespace Sys2Proof.Machine

/-- Bits packed in a word: the sum of values each at its place. -/
def pack (vs : List (Nat × Nat)) : Word := wordOf ((vs.map (fun v => v.1 * 2 ^ v.2)).sum)

/-- A flag as a number. -/
def bit (b : Bool) : Nat := if b then 1 else 0

/-- The words of an exposure record: E, I, a, d. -/
def recordWords (r : ExpRecord) : List Word := [wordOf r.total, wordOf r.integ, wordOf r.analog, wordOf r.digital]

/-- The words of a tick that may be absent, without a presence word. -/
def tickWords (t : Option Tick) : List Word := wordsOf32 (t.getD 0)

/-- FRAME_HISTORY of one record, after the number held (R200, R214). -/
def frameRecordWords (r : FrameRecord) : List Word :=
  [r.number,
   pack [(bit r.gap, 0), (bit r.matched, 1), (bit r.metered.isSome, 2), (bit r.glare.isSome, 3),
         (bit (match r.glare with
           | some g => g.2
           | none => false), 4),
         (r.cls.code, 8), (r.bank.val, 12)],
   wordOfInt r.temp] ++ wordsOf32 r.arrival ++ recordWords r.exposure ++
  [pack [(match r.slot with
      | some n => n.num
      | none => 0, 0), (r.outcome.code, 8)]] ++
  (match r.metered with
   | some m => [wordOf m.1, wordOfInt m.2]
   | none => [0, 0]) ++
  [match r.glare with
   | some g => wordOf g.1
   | none => 0]

/-- FRAME_HISTORY (R200, R214). -/
def historyWords (h : List FrameRecord) (i : Nat) : List Word :=
  wordOf h.length :: (match h[i]? with
    | some r => frameRecordWords r
    | none => [])

/-- FAULT_RECORD (R181, R214). -/
def State.faultWords (s : State) (i : RecordId) : List Word :=
  let r := s.faults.get i
  let part := match i with
    | .part _ => 1
    | .side _ _ => 0
  [pack [(i.index, 0), (i.classCode, 8)],
   pack [(part, 0), (i.severity.code, 4), (r.state.code, 8), (bit r.firstActive.isSome, 12), (bit r.lastChange.isSome, 13)],
   wordOf r.count] ++ tickWords r.firstActive ++ tickWords r.lastChange ++
  [r.detail,
   pack [(bit (decide (i ∈ s.links.left.notices)), 0), (bit (decide (i ∈ s.links.right.notices)), 1)],
   setWord s.links.left.mask, setWord s.links.right.mask]

/-- ERROR_LOG of a memory (R129, R173, R214). DEDUCED: corr_cond stands with an empty log too (log entry 15). -/
def errorLogWords (log : Option LogRecord) (j : Option Injection) (corr : Bool) : List Word :=
  let logBits := match log with
    | some e => [(1, 0), (bit (decide (e.kind = .uncorrectable)), 1), (e.side.code, 2)]
    | none => []
  let injBits := match j with
    | some i => [(1, 4), (bit (decide (i.kind = .double)), 5), (match i.trigger with
        | .address _ => 0
        | .count _ => 1, 6)]
    | none => []
  [pack (logBits ++ [(bit corr, 3)] ++ injBits)] ++
  (match log with
   | some e => wordOf e.syndrome :: wordsOf32 (BitVec.ofNat 32 e.addr)
   | none => [0, 0, 0]) ++
  (match j with
   | some i =>
     (match i.trigger with
      | .address a => wordsOf32 (BitVec.ofNat 32 a) ++ [0]
      | .count n => wordsOf32 (BitVec.ofNat 32 n) ++ [wordOf i.reads])
   | none => [0, 0, 0])

/-- A bank that may be absent, as EXPOSURE_STATE codes it: 4 meaning none (R214). -/
def bankCode : Option Bank → Nat
  | some b => b.val
  | none => 4

/-- EXPOSURE_STATE (R49, R214). -/
def exposureWords (e : Exposure) : List Word :=
  let mode := match e.mode with
    | .auto => [(0, 8), (0, 9)]
    | .forced b => [(1, 8), (b.val, 9)]
  [pack ([(bit e.inForce.isSome, 0), (e.pendingQueue.length, 4)] ++ mode ++ [(e.bank.val, 12)]),
   pack [(bankCode e.scheduled, 0), (bankCode e.direction, 4), (e.dwell, 8)],
   wordOf e.mismatchCount, wordOfInt e.trim] ++
  (match e.inForce with
   | some r => recordWords r
   | none => [0, 0, 0, 0]) ++
  (e.pendingQueue.map (fun p => p.target :: recordWords p.record)).flatten

/-- GLARE_LEVELS of a zone row (R92, R214). -/
def glareWords (g : Glare) (zr : Nat) : List Word :=
  ((List.range 12).map (fun zc =>
    let z := g.zones.getD (12 * zr + zc) { level := 0, hold := 0 }
    let a : List Word := match g.handed with
      | some hs => [1, wordOfInt (hs.getD (12 * zr + zc) 0)]
      | none => [0, 0]
    [wordOf z.level, wordOf z.hold] ++ a)).flatten ++
  (match g.lastUpdate with
   | some u => [1, u.frame, wordOf u.litCount, wordOfBool u.suspended]
   | none => [0, 0, 0, 0])

/-- The words of a window. -/
def windowWords (v : Window) : List Word := [wordOf v.x, wordOf v.y, wordOf v.w, wordOf v.h]

/-- WINDOW_STATE (R106, R214). -/
def windowStateWords (f : Framing) (a : Articulation) : List Word :=
  [wordOfInt f.aimDx, wordOfInt f.aimDy, wordOf f.panTarget, wordOf f.panCur] ++
  (match f.windows with
   | some w =>
     [1] ++ windowWords w.main ++ windowWords w.wide ++ [Config.clampMarkCode w.markX, Config.clampMarkCode w.markY]
   | none => List.replicate 11 0) ++
  [wordOfInt a.angle, wordOfBool a.stale]

/-- One slot of SLOT_STATE (R128, R214). -/
def slotWords (a : Slot) : List Word :=
  [Config.slotStateCode a.state, wordOfBool a.damaged] ++
  (match a.content with
   | some c => [1, Config.geometryCode c.geometry, c.source.frame] ++ wordsOf32 c.source.arrival
   | none => [0, 0, 0, 0, 0])

/-- SLOT_STATE (R128, R214). -/
def slotStateWords (t : SideStore) : List Word :=
  slotWords t.slots.s0 ++ slotWords t.slots.s1 ++ slotWords t.slots.s2 ++ [wordOf t.cleanCount, wordOfBool t.fseCond]

/-- A poisoned flag with its bad index (R173, R214). -/
def poisonWords (b : Option Nat) : List Word :=
  match b with
  | some j => [1, wordOf j]
  | none => [0, 0]

/-- TABLE_STATE (R173, R214). -/
def State.tableStateWords (s : State) (x : Side) : List Word :=
  let d := (s.side x).tables
  (TableId.all.map (fun t =>
    let c := d.ctl.get t
    [wordOf c.active.num, Config.shadowStateCode c.shadow] ++ poisonWords (c.bad c.active) ++
      poisonWords (c.bad c.active.other))).flatten ++
  (match d.commit with
   | some c => [1, setWord c.tables, wordOfBool c.link.isSome]
   | none => [0, 0, 0]) ++
  [wordOf d.defectCount, wordOf (s.shareOf x), wordOf (s.side x).dev.edits.length, wordOfBool d.defectLoss,
   wordOfBool d.poisonCond]

/-- The words of one side in PART_STATE (R201, R214). -/
def sidePartWords (d : SideState) : List Word :=
  [Config.portStateCode d.port.state, wordOf d.comp.view.code, wordOf d.comp.mode.code, wordOf d.comp.requested.code,
   wordOf d.comp.repeatCount] ++ wordsOf32 d.comp.frameCount

/-- The words of one link in PART_STATE (R201, R214). -/
def linkPartWords (k : Link) : List Word := [Config.linkStateCode k.state, wordOfBool k.beenUp]

/-- The four lock flags (R201, R206). -/
def lockWords (k : Locks) : List Word := [wordOfBool k.layout, wordOfBool k.sensor, wordOfBool k.pan, wordOfBool k.defects]

/-- PART_STATE (R201, R214). -/
def State.partStateWords (s : State) : List Word :=
  [0x5A24, 1, 1] ++ sidePartWords s.sides.left ++ sidePartWords s.sides.right ++ linkPartWords s.links.left ++
    linkPartWords s.links.right ++ lockWords s.locks

end Sys2Proof.Machine
end

