-- ==== Sys2Proof/Machine/FaultDirectives.lean ====
section
/-! DEFINITION. The meanings of the directives of the fault table, the error logs and the injections: ACK_FAULT, NOTICE_MASK,
CLEAR_ERROR_LOG and INJECT_ERROR (R125, R126, R171, R172, R179, R182, R204, R207). -/

namespace Sys2Proof.Machine

/-! ## ACK_FAULT (R179) -/

/-- ACK_FAULT of a record (R179). -/
def State.acknowledge (i : RecordId) (s : State) : Response × State :=
  let r := s.faults.get i
  match r.state with
  | .active =>
    let r' := { r with state := .acked, lastChange := some s.tick }
    (.done [wordOf i.index, wordOf RecordState.acked.code, wordOf r.count, r.detail], (s.setRecord i r').notify i)
  | .clear => (.refused .notActive [], s)
  | .acked => (.refused .notActive [], s)

/-- ACK_FAULT (R179). -/
def execAckFault (l : Side) (p : Packet) (s : State) : Host.Outcome State Fault Refusal :=
  s.take (fun s => s.plainDirective l p (fun s =>
    match faultField p.s0 p.side with
    | some i => State.acknowledge i s
    | none => (.refused .badArgument [], s)))

/-! ## NOTICE_MASK (R182, R204) -/

/-- NOTICE_MASK for the links named (R204). -/
def State.maskLinks (mask : BitVec 13) (ls : List Side) (s : State) : Response × State :=
  (.done (ls.map (fun _ => mask.setWidth 16)), s.forSides ls (fun s l => s.onLink l (fun k => { k with mask := mask })))

/-- NOTICE_MASK (R182, R204). -/
def execNoticeMask (l : Side) (p : Packet) (s : State) : Host.Outcome State Fault Refusal :=
  s.take (fun s => s.plainDirective l p (fun s =>
    match sidesField p.side with
    | some ls => if 8192 ≤ p.s0.toNat then (.refused .badArgument [], s) else State.maskLinks (p.s0.setWidth 13) ls s
    | none => (.refused .badArgument [], s)))

/-! ## CLEAR_ERROR_LOG (R125, R171, R207) -/

/-- The check of ERROR_CORRECTED after logs are emptied (R125). -/
def State.checkCorrected (s : State) : State :=
  if s.frameStore.log = none ∧ s.tableStore.log = none ∧ s.corrCond = true then
    ({ s with corrCond := false }).endFault (.part .errorCorrected)
  else s

/-- The logs named by a CLEAR_ERROR_LOG are emptied, and the check is made once (R125, R171, R207). -/
def State.clearLogs (frame table : Bool) (s : State) : State :=
  let s := if frame then { s with frameStore := { s.frameStore with log := none } } else s
  let s := if table then { s with tableStore := { s.tableStore with log := none } } else s
  s.checkCorrected

/-- CLEAR_ERROR_LOG (R207). -/
def execClearErrorLog (l : Side) (p : Packet) (s : State) : Host.Outcome State Fault Refusal :=
  s.take (fun s => s.plainDirective l p (fun s =>
    if p.s0 = 1 then (.done [], s.clearLogs true false)
    else if p.s0 = 2 then (.done [], s.clearLogs false true)
    else if p.s0 = 3 then (.done [], s.clearLogs true true)
    else (.refused .badArgument [], s)))

/-! ## INJECT_ERROR (R126, R172, R207, R211) -/

/-- An INJECT_ERROR for a memory of `size` words with code `memory`: `arm` puts the injection in place (R207, R211). -/
def State.injectDirective (memory size : Nat) (arm : Injection → State → State) (p : Packet) (s : State) : Response × State :=
  match p.args with
  | [lo, hi] =>
    if field p.s0 0 2 = memory then
      match injectionField size p.s0 lo hi with
      | some j => (.done (injectionWords j), arm j s)
      | none => (.refused .badArgument [], s)
    else (.refused .badArgument [], s)
  | _ => (.refused .badArgument [], s)

/-- The frame-store injection is armed (R126). -/
def State.armFrame (j : Injection) (s : State) : State := { s with frameStore := { s.frameStore with injection := some j } }

/-- The table-store injection is armed (R172). -/
def State.armTable (j : Injection) (s : State) : State := { s with tableStore := { s.tableStore with injection := some j } }

/-- INJECT_ERROR naming the frame store (R126, R207). -/
def execInjectErrorFrameStore (l : Side) (p : Packet) (s : State) : Host.Outcome State Fault Refusal :=
  s.take (fun s => s.directive l p (State.injectDirective 1 frameStoreSize State.armFrame p))

/-- INJECT_ERROR naming the table store (R172, R207). -/
def execInjectErrorTableStore (l : Side) (p : Packet) (s : State) : Host.Outcome State Fault Refusal :=
  s.take (fun s => s.directive l p (State.injectDirective 2 tableStoreSize State.armTable p))

end Sys2Proof.Machine
end

