-- ==== Sys2Proof/Decode.lean ====
section
/-! DEFINITION. Sys2Proof.decodeTableWord over the rows of spec/opcode_table.json, none of which gives bits, and the packets of the
reverse channel as words: the check word, the commands that received words are, and the words that carry a command (R195, R198, R199,
R211). -/

namespace Sys2Proof

/-- The command that a word spells by the table's bits: no row of the table gives bits. -/
def decodeTableWord (_nbits _w : Nat) : Option Instr := none

/-! ## Packets (R211) -/

/-- The sum of the words of a packet, modulo 65536 (R211). -/
def wordSum (ws : List Word) : Word := ws.foldl (· + ·) 0

/-- A packet: its kind word, its words, and the check word that makes the sum of all words 0 (R211). -/
def packetOf (kind : Word) (words : List Word) : List Word :=
  let body := kind :: words
  body ++ [-(wordSum body)]

/-- The kind word of a status word (R211). -/
def statusKind : Word := 0x0A01

/-- The kind word of a directive packet (R211). -/
def directiveKind : Word := 0x0A02

/-- The link port drops a reverse packet: its sum is not 0, or its kind word is neither of the two (R195, R211). -/
def dropped (ws : List Word) : Bool :=
  decide (wordSum ws ≠ 0) || (decide (ws.head? ≠ some statusKind) && decide (ws.head? ≠ some directiveKind))

/-! ## Receiving -/

/-- The item that a READ_ITEM names (R199). An item code that names no item stands with FRAME_HISTORY, which refuses it. -/
def readItemOf (l : Side) (p : Packet) : Instr :=
  match p.s0.toNat with
  | 1 => .faultRecord l p
  | 2 => .errorLog l p
  | 3 => .exposureState l p
  | 4 => .glareLevels l p
  | 5 => .windowState l p
  | 6 => .slotState l p
  | 7 => .tableState l p
  | 8 => .defectEntry l p
  | 9 => .partState l p
  | _ => .frameHistory l p

/-- The command of a directive packet with a code (R198, R211). A mode or memory that is neither of its two values stands with the
first row, which refuses it. -/
def directiveOf (l : Side) (code : BitVec 8) (p : Packet) : Instr :=
  match code.toNat with
  | 1 => readItemOf l p
  | 2 => .loadTable l p
  | 3 => .commit l p
  | 4 => if p.s0 = 0 then .setProfileModeAuto l p else .setProfileModeForce l p
  | 5 => .articulation l p
  | 6 => .aim l p
  | 7 => .trim l p
  | 8 => .outputMode l p
  | 9 => .defectAdd l p
  | 10 => .defectRemove l p
  | 11 => .defectSplit l p
  | 12 => .ackFault l p
  | 13 => .noticeMask l p
  | 14 => .clearErrorLog l p
  | 15 => if p.s0.extractLsb' 0 2 = 2 then .injectErrorTableStore l p else .injectErrorFrameStore l p
  | 16 => .lock l p
  | 17 => .sensorWrite l p
  | 18 => .restartSide l p
  | _ => .unknownDirective l code p

/-- The packet of H1, H2, S0, S1 and the argument words (R211). -/
def packetOfWords (h1 h2 s0 s1 : Word) (args : List Word) : Packet :=
  { tag := h1.extractLsb' 0 8, side := h2.extractLsb' 0 2, length := h2.extractLsb' 8 8, s0 := s0, s1 := s1, args := args }

/-- The command that the words of a reverse packet of a link are (R195, R211). A packet that passes its check and is too short or too
long for its kind is none: the spec gives it no layout (log entry 12). -/
def receive (l : Side) (ws : List Word) : Option Instr :=
  if dropped ws then some (.packetDropped l ws)
  else
    match ws with
    | kind :: rest =>
      if kind = statusKind then
        match rest with
        | [lo, hi, panel, _] => some (.statusWord l (hi ++ lo) panel)
        | _ => none
      else
        match rest with
        | h1 :: h2 :: s0 :: s1 :: tail =>
          if tail = [] then none
          else some (directiveOf l (h1.extractLsb' 8 8) (packetOfWords h1 h2 s0 s1 tail.dropLast))
        | _ => none
    | [] => none

/-! ## Sending -/

/-- The words of a directive packet with a code (R211). -/
def directiveWords (code : BitVec 8) (p : Packet) : List Word :=
  packetOf directiveKind ((code ++ p.tag) :: (p.length ++ (0 : BitVec 6) ++ p.side) :: p.s0 :: p.s1 :: p.args)

/-- The words of a status word (R211). -/
def statusWords (echo : BitVec 32) (panel : Word) : List Word :=
  packetOf statusKind [echo.extractLsb' 0 16, echo.extractLsb' 16 16, panel]

/-- The link and the words that carry a command, for the commands that a reverse packet is (R195, R198, R211). -/
def Instr.reverseWords : Instr → Option (Side × List Word)
  | .statusWord l echo panel => some (l, statusWords echo panel)
  | .packetDropped l ws => some (l, ws)
  | .unknownDirective l code p => some (l, directiveWords code p)
  | .frameHistory l p => some (l, directiveWords 1 p)
  | .faultRecord l p => some (l, directiveWords 1 p)
  | .errorLog l p => some (l, directiveWords 1 p)
  | .exposureState l p => some (l, directiveWords 1 p)
  | .glareLevels l p => some (l, directiveWords 1 p)
  | .windowState l p => some (l, directiveWords 1 p)
  | .slotState l p => some (l, directiveWords 1 p)
  | .tableState l p => some (l, directiveWords 1 p)
  | .defectEntry l p => some (l, directiveWords 1 p)
  | .partState l p => some (l, directiveWords 1 p)
  | .loadTable l p => some (l, directiveWords 2 p)
  | .commit l p => some (l, directiveWords 3 p)
  | .setProfileModeForce l p => some (l, directiveWords 4 p)
  | .setProfileModeAuto l p => some (l, directiveWords 4 p)
  | .articulation l p => some (l, directiveWords 5 p)
  | .aim l p => some (l, directiveWords 6 p)
  | .trim l p => some (l, directiveWords 7 p)
  | .outputMode l p => some (l, directiveWords 8 p)
  | .defectAdd l p => some (l, directiveWords 9 p)
  | .defectRemove l p => some (l, directiveWords 10 p)
  | .defectSplit l p => some (l, directiveWords 11 p)
  | .ackFault l p => some (l, directiveWords 12 p)
  | .noticeMask l p => some (l, directiveWords 13 p)
  | .clearErrorLog l p => some (l, directiveWords 14 p)
  | .injectErrorFrameStore l p => some (l, directiveWords 15 p)
  | .injectErrorTableStore l p => some (l, directiveWords 15 p)
  | .lock l p => some (l, directiveWords 16 p)
  | .sensorWrite l p => some (l, directiveWords 17 p)
  | .restartSide l p => some (l, directiveWords 18 p)
  | .frameBeginMarker _ => none
  | .line _ _ => none
  | .frameEndMarker _ => none
  | .lossExpiry _ => none
  | .sensorBusResponse _ _ => none
  | .responseTimerExpiry _ => none
  | .articulationTimerExpiry => none
  | .outputFrameStart _ => none
  | .linePeriodStart _ => none
  | .trainingRequest _ => none
  | .ready _ => none
  | .lossOfLock _ => none
  | .powerOnReset => none
  | .resetInputAsserted => none

end Sys2Proof
end

