-- ==== Sys2Proof/Machine/BusOps.lean ====
section
/-! DEFINITION. The operations of the sensor bus master (R15 to R22) and the exposure unit's answers to its reports (R39 to R42). -/

namespace Sys2Proof.Machine

/-! ## Attempts -/

/-- The device address in use: the word of the active SENSOR bank, or of the ROM default where that bank is poisoned or the word reads
uncorrectable (R18, R156, R164). -/
def State.deviceAddress (s : State) (x : Side) : BitVec 8 × State :=
  let c := (s.side x).tables.ctl.sensor
  let rom := deviceOf (romSensor.getD 0 0)
  match c.bad c.active with
  | some _ => (rom, s)
  | none =>
    let r := s.readBankWord x .sensor c.active 0
    match r.1 with
    | some v => (deviceOf v, r.2)
    | none => (rom, r.2)

/-- A write transaction is opened for the head entry, with a response timer (R18). It takes the next transaction number. -/
def State.openAttempt (s : State) (x : Side) (e : WriteEntry) : State :=
  let r := s.deviceAddress x
  { r.2 with opened := r.2.opened + 1 }.onSide x (fun d =>
    { d with bus := { d.bus with
        state := .sending,
        transaction := some { number := r.2.opened, device := r.1, register := e.register, value := e.value },
        timerStart := r.2.tick } })

/-- The buffer with the sent flags of one group set (R15, R18). -/
def markSent (g : BitVec 8) (buf : List WriteEntry) : List WriteEntry :=
  buf.map (fun e => if e.group = g then { e with sent := true } else e)

/-- When the bus is IDLE and the buffer is not empty, an attempt starts on the head entry (R18). -/
def State.startAttempt (s : State) (x : Side) : State :=
  let b := (s.side x).bus
  match b.state, b.buffer with
  | .idle, e :: _ =>
    let s := s.onSide x (fun d =>
      { d with bus := { d.bus with
          buffer := if e.sent then d.bus.buffer else markSent e.group d.bus.buffer,
          attempts := 1 } })
    s.openAttempt x e
  | _, _ => s

/-- The transaction is closed and the buffer replaced; the bus is IDLE with attempt count 0 (R19, R20). -/
def Bus.closed (b : Bus) (buf : List WriteEntry) : Bus :=
  { b with buffer := buf, state := .idle, attempts := 0, transaction := none, finishing := false }

/-! ## The exposure unit's answers -/

/-- A new pending entry joins the queue (R41). -/
def joinPending (q : List PendingEntry) (e : PendingEntry) : List PendingEntry :=
  let q := q.filter (fun p => !(decide (p.target = e.target) || later p.target e.target))
  q.drop (q.length - 3) ++ [e]

/-- The bus master reports a group acknowledged (R40, R41). -/
def State.groupAcknowledged (s : State) (x : Side) (g : BitVec 8) : State :=
  let d := s.side x
  match d.exposure.outstanding.find? (fun o => decide (o.group = g)) with
  | none => s
  | some o =>
    let rest := d.exposure.outstanding.filter (fun p => !decide (p.group = g))
    match d.port.fcur with
    | none => s.onSide x (fun d => { d with exposure := { d.exposure with outstanding := rest } })
    | some f =>
      let target : FrameNo := f + BitVec.ofNat 16 (s.sensorOf x).nLat
      s.onSide x (fun d =>
        { d with exposure := { d.exposure with
            outstanding := rest,
            pendingQueue := joinPending d.exposure.pendingQueue { target := target, record := o.record } } })

/-- The bus master reports a group abandoned (R42). -/
def State.groupAbandoned (s : State) (x : Side) (g : BitVec 8) : State :=
  s.onSide x (fun d =>
    { d with exposure := { d.exposure with
        outstanding := d.exposure.outstanding.filter (fun p => !decide (p.group = g)) } })

/-! ## The end of an attempt -/

/-- The head of a restarted side leaves after its attempt, whatever the outcome (R22). -/
def State.finishHead (s : State) (x : Side) : State :=
  (s.onSide x (fun d => { d with bus := d.bus.closed (d.bus.buffer.drop 1) })).startAttempt x

/-- SENSOR_BUS is ended if it is in force (R21). -/
def State.endSensorBus (s : State) (x : Side) : State :=
  if (s.side x).bus.busCond then
    (s.onSide x (fun d => { d with bus := { d.bus with busCond := false } })).endFault (.side .sensorBus x)
  else s

/-- The camera answers ACK to the head entry (R19). -/
def State.attemptAcked (s : State) (x : Side) : State :=
  match (s.side x).bus.buffer with
  | [] => s
  | e :: rest =>
    if (s.side x).bus.finishing then s.finishHead x
    else
      let s := s.onSide x (fun d => { d with bus := d.bus.closed rest })
      let last := match rest with
        | [] => true
        | n :: _ => !decide (n.group = e.group)
      let s := if e.origin = .exposure ∧ last = true then (s.groupAcknowledged x e.group).endSensorBus x else s
      s.startAttempt x

/-- The third attempt on the head entry has failed (R20, R21). -/
def State.writeFailed (s : State) (x : Side) (e : WriteEntry) (rest : List WriteEntry) : State :=
  let rest := match e.origin with
    | .exposure => rest.filter (fun n => !decide (n.group = e.group))
    | .service => rest
  let s := s.onSide x (fun d => { d with bus := { d.bus.closed rest with busCond := true } })
  let s := match e.origin with
    | .exposure => s.groupAbandoned x e.group
    | .service => s
  (s.raise (.side .sensorBus x) e.register).startAttempt x

/-- The attempt on the head entry has failed, by NAK or by expiry (R19, R20). -/
def State.attemptFailed (s : State) (x : Side) : State :=
  match (s.side x).bus.buffer with
  | [] => s
  | e :: rest =>
    if (s.side x).bus.finishing then s.finishHead x
    else if (s.side x).bus.attempts < 3 then
      (s.onSide x (fun d => { d with bus := { d.bus with attempts := d.bus.attempts + 1 } })).openAttempt x e
    else s.writeFailed x e rest

/-! ## Queuing -/

/-- The bus master's answer to a request for an exposure group (R16). -/
inductive GroupReport where
  | queued (group : BitVec 8) (superseded : Option (BitVec 8))
  | dropped
  deriving DecidableEq, Repr

/-- An entry of an unsent EXPOSURE group. -/
def WriteEntry.unsentExposure (e : WriteEntry) : Bool := decide (e.origin = .exposure) && !e.sent

/-- A request for an exposure group: superseding, then queuing (R16). -/
def Bus.requestGroup (b : Bus) (regI valI regA valA : Word) : GroupReport × Bus :=
  let superseded := (b.buffer.find? WriteEntry.unsentExposure).map WriteEntry.group
  let buf := b.buffer.filter (fun e => !e.unsentExposure)
  if 14 < buf.length then (.dropped, { b with buffer := buf })
  else
    (.queued b.groupCounter superseded,
      { b with
        buffer := buf ++ [{ register := regI, value := valI, origin := .exposure, group := b.groupCounter, sent := false },
                          { register := regA, value := valA, origin := .exposure, group := b.groupCounter, sent := false }],
        groupCounter := b.groupCounter + 1 })

/-- One SERVICE write is queued (R17). -/
def Bus.queueService (b : Bus) (reg val : Word) : Bus :=
  { b with
    buffer := b.buffer ++ [{ register := reg, value := val, origin := .service, group := b.groupCounter, sent := false }],
    groupCounter := b.groupCounter + 1 }

/-- A record is sent: its group is requested, and the outstanding list takes the bus master's report (R16, R18, R39). -/
def State.sendExposure (s : State) (x : Side) (r : ExpRecord) : State :=
  let sen := s.sensorOf x
  let q := (s.side x).bus.requestGroup sen.integRegister (wordOf r.integ) sen.gainRegister (wordOf (r.analog / 32))
  let s := s.onSide x (fun d => { d with bus := q.2 })
  match q.1 with
  | .dropped => s
  | .queued g sup =>
    let s := s.onSide x (fun d =>
      { d with exposure := { d.exposure with
          outstanding :=
            d.exposure.outstanding.filter (fun o => !decide (some o.group = sup)) ++ [{ group := g, record := r }] } })
    s.startAttempt x

/-! ## Side restart -/

/-- The bus master at a side restart (R22). -/
def Bus.restarted (b : Bus) : Bus :=
  match b.state with
  | .idle => { b with buffer := [], busCond := false }
  | .sending => { b with buffer := b.buffer.take 1, busCond := false, finishing := true }

end Sys2Proof.Machine
end

