-- ==== Sys2Proof/Machine/ExposureOps.lean ====
section
/-! DEFINITION. The exposure unit (R27 to R38, R43 to R48, R51): limits, retirement, match and seed at a frame start, metering,
auto-exposure, split and ladder at a good frame end. -/

namespace Sys2Proof.Machine

/-! ## Limits (R28) -/

/-- The limits that govern a frame (R28). -/
structure Limits where
  imaxEff : Nat
  aMax : Nat
  dMax : Nat
  eMax : Nat
  deriving DecidableEq, Repr

/-- The limits from a profile record and a sensor record (R28). -/
def limitsOf (p : Profile) (n : Sensor) : Limits :=
  let imax := min p.imax n.imaxHw
  { imaxEff := imax, aMax := n.gainMax * 32, dMax := p.dMax, eMax := logLevel imax + n.gainMax * 32 + p.dMax }

/-- The profile record of a bank in the copies in use (R28). -/
def State.profileOf (s : State) (x : Side) (b : Bank) : Profile := readProfile ((s.copies x).get (TableId.profile b))

/-! ## Frame start -/

/-- The scheduled bank becomes the current bank (R45). -/
def Exposure.switchBank (e : Exposure) : Exposure :=
  match e.scheduled with
  | some b => { e with bank := b, scheduled := none }
  | none => e

/-- The entry is due at frame start `f` (R29). -/
def PendingEntry.due (f : FrameNo) (p : PendingEntry) : Bool := decide (p.target = f) || later f p.target

/-- The entry lies too far ahead of frame start `f` to fall due (R29). -/
def PendingEntry.farAhead (f : FrameNo) (p : PendingEntry) : Bool := later p.target (f + 3)

/-- Retirement at frame start `f` (R29). The queue stands in target order, so the last entry due has the latest target.
DEDUCED: an entry that is both due and too far ahead is retired as due (log entry 20). -/
def Exposure.retire (e : Exposure) (f : FrameNo) : Exposure :=
  { e with
    inForce := match (e.pendingQueue.filter (PendingEntry.due f)).getLast? with
      | some p => some p.record
      | none => e.inForce,
    pendingQueue := e.pendingQueue.filter (fun p => !(p.due f || p.farAhead f)) }

/-- The record rebuilt from the embedded status on a mismatched frame (R30). -/
def rebuiltRecord (l : Limits) (old : ExpRecord) (iEmb aEmb : Nat) : ExpRecord :=
  let i := max 1 (min iEmb l.imaxEff)
  let d := min (old.total - logLevel i - aEmb) l.dMax
  { total := logLevel i + aEmb + d, integ := i, analog := aEmb, digital := d }

/-- The record seeded from the embedded status (R31). -/
def seededRecord (l : Limits) (iEmb aEmb : Nat) : ExpRecord :=
  let i := max 1 (min iEmb l.imaxEff)
  { total := logLevel i + aEmb, integ := i, analog := aEmb, digital := 0 }

/-- What the match of a frame finds (R30, R31). -/
inductive MatchResult where
  | matched
  | seeded
  | mismatched
  deriving DecidableEq, Repr

/-- Match, rebuild or seed after retirement (R30, R31): the in-force record and the mismatch count are brought up to date. A camera that
runs beyond Imax_eff does not match, even where the in-force record, made under a larger limit, says the same (R30, R43). -/
def Exposure.matchFrame (e : Exposure) (l : Limits) (iEmb code : Nat) : MatchResult × Exposure :=
  let aEmb := min (code * 32) l.aMax
  match e.inForce with
  | none => (.seeded, { e with inForce := some (seededRecord l iEmb aEmb), mismatchCount := 0 })
  | some r =>
    if iEmb = r.integ ∧ aEmb = r.analog ∧ iEmb ≤ l.imaxEff then (.matched, { e with mismatchCount := 0 })
    else (.mismatched,
      { e with inForce := some (rebuiltRecord l r iEmb aEmb), mismatchCount := satSucc e.mismatchCount 255 })

/-- EXPOSURE_MISMATCH after the match of frame `f` (R32). A seeded frame ends nothing. -/
def State.reportMatch (s : State) (x : Side) (f : FrameNo) (m : MatchResult) : State :=
  let e := (s.side x).exposure
  match m with
  | .seeded => s
  | .matched =>
    if e.mismatchCond then
      (s.onSide x (fun d => { d with exposure := { d.exposure with mismatchCond := false } })).endFault
        (.side .exposureMismatch x)
    else s
  | .mismatched =>
    if 3 ≤ e.mismatchCount then
      (s.onSide x (fun d => { d with exposure := { d.exposure with mismatchCond := true } })).raise
        (.side .exposureMismatch x) f
    else s

/-! ## Zones and metering -/

/-- The zone intersects the window (R34). -/
def zoneMeets (zc zr : Nat) (v : Window) : Bool :=
  decide (80 * zc < v.x + v.w) && decide (v.x < 80 * zc + 80) && decide (80 * zr < v.y + v.h) && decide (v.y < 80 * zr + 80)

/-- The zone is lit (R34, R80). -/
def zoneLit (p : Profile) (z : ZoneAcc) : Bool := decide (p.zoneThreshold ≤ z.bright)

/-- The lit count (R80). -/
def litCountOf (p : Profile) (zones : List ZoneAcc) : Nat := zones.countP (zoneLit p)

/-- Glare is suspended (R34, R81). -/
def suspendedOf (p : Profile) (zones : List ZoneAcc) : Bool := decide (p.maxLit < litCountOf p zones)

/-- The zone is taken as lit: excluded from metering and raised by the glare update (R34, R82). -/
def takenAsLit (p : Profile) (suspended : Bool) (z : ZoneAcc) : Bool := zoneLit p z && p.glareEnable && !suspended

/-- The metered zones: the zones, numbered 12 zr + zc, that intersect the window and are not excluded (R34). -/
def meteredZones (p : Profile) (v : Window) (zones : List ZoneAcc) : List ZoneAcc :=
  let susp := suspendedOf p zones
  (zones.zipIdx.filter (fun z => zoneMeets (z.2 % 12) (z.2 / 12) v && !takenAsLit p susp z.1)).map Prod.fst

/-- The metered mean, or none when no zone is metered (R35). -/
def meteredMean (p : Profile) (v : Window) (zones : List ZoneAcc) : Option Nat :=
  let ms := meteredZones p v zones
  if ms = [] then none else some ((ms.map ZoneAcc.green).sum / (6400 * ms.length))

/-! ## Auto-exposure and split -/

/-- The requested exposure E_req (R36). -/
def requestedExposure (p : Profile) (l : Limits) (trim : Int) (m eF : Nat) : Nat :=
  let diff := (p.lTarget + trim) - (logLevel m : Int)
  let dE := if (diff.natAbs : Int) ≤ p.deadband then 0 else clamp ((diff * p.damping).tdiv 16) (-p.maxStep) p.maxStep
  (clamp ((eF : Int) + dE) 0 l.eMax).toNat

/-- The split of E_req (R38). -/
def splitExposure (l : Limits) (e : Nat) : ExpRecord :=
  let i := max 1 (min l.imaxEff (powSteps e))
  let r := e - logLevel i
  let a := min l.aMax (32 * (r / 32))
  let d := min l.dMax (r - a)
  { total := logLevel i + a + d, integ := i, analog := a, digital := d }

/-- The expected E: that of the newest pending entry, or that of the in-force record (R37). -/
def expectedE (q : List PendingEntry) (eF : Nat) : Nat :=
  match q.getLast? with
  | some p => p.record.total
  | none => eF

/-! ## The ladder (R44, R45) -/

/-- The bank that the scene level leads toward, if it meets a condition of the ladder; for the frame's bank 3 there is none (R44). -/
def ladderToward (l : Ladder) (b : Bank) (scene : Int) : Option Bank :=
  match b with
  | 0 => if scene < l.dayToDusk then some 1 else none
  | 1 =>
    if scene < l.duskToNight then (if scene > l.duskToDay then none else some 2)
    else if scene > l.duskToDay then some 0 else none
  | 2 => if scene > l.nightToDusk then some 1 else none
  | 3 => none

/-- The dwell count, direction and scheduled bank after an evaluation (R45). -/
def Exposure.dwellStep (e : Exposure) (dwell : Nat) (toward : Option Bank) : Exposure :=
  match toward with
  | none => { e with dwell := 0, direction := none }
  | some t =>
    let n := if 0 < e.dwell ∧ e.direction = some t then e.dwell + 1 else 1
    if dwell ≤ n then { e with scheduled := some t, dwell := 0, direction := none }
    else { e with dwell := n, direction := some t }

/-- The ladder is evaluated at the good frame end of a frame of bank `b` with scene level `scene` (R44). -/
def Exposure.evaluateLadder (e : Exposure) (l : Ladder) (b : Bank) (scene : Int) : Exposure :=
  match e.mode with
  | .forced _ => e
  | .auto => if b = 3 then e else e.dwellStep l.dwell (ladderToward l b scene)

/-! ## Good frame end -/

/-- The newest frame record of a side's history is changed. -/
def SideState.onNewest (d : SideState) (f : FrameRecord → FrameRecord) : SideState :=
  match d.history with
  | [] => d
  | r :: rs => { d with history := f r :: rs }

/-- The exposure unit at the good frame end of the frame with the given inputs and accumulators: metering, ladder, auto-exposure
(R34 to R38, R44). -/
def State.meterFrame (s : State) (x : Side) (inp : FrameInputs) (zones : List ZoneAcc) : State :=
  let p := s.profileOf x inp.bank
  let l := limitsOf p (s.sensorOf x)
  match meteredMean p inp.main zones with
  | none => s.onSide x (fun d => d.onNewest (fun r => { r with metered := none }))
  | some m =>
    let scene : Int := (logLevel m : Int) - inp.exposure.total
    let s := s.onSide x (fun d =>
      let d := d.onNewest (fun r => { r with metered := some (m, scene) })
      { d with exposure := d.exposure.evaluateLadder (readLadder (s.copies x).ladder) inp.bank scene })
    let e := (s.side x).exposure
    let eReq := requestedExposure p l e.trim m inp.exposure.total
    if eReq = expectedE e.pendingQueue inp.exposure.total then s
    else s.sendExposure x (splitExposure l eReq)

/-! ## Directives and resets -/

/-- SET_PROFILE_MODE FORCE b (R46). -/
def Exposure.force (e : Exposure) (b : Bank) : Exposure :=
  { e with mode := .forced b, scheduled := some b, dwell := 0, direction := none }

/-- SET_PROFILE_MODE AUTO (R47). -/
def Exposure.auto (e : Exposure) : Exposure :=
  { e with mode := .auto, scheduled := if e.bank = 3 then some 0 else none, dwell := 0, direction := none }

/-- The exposure unit at a side restart (R51). -/
def Exposure.restarted (e : Exposure) : Exposure :=
  { Exposure.reset with
    mode := e.mode,
    bank := match e.mode with
      | .auto => 0
      | .forced b => b }

end Sys2Proof.Machine
end

