-- ==== Sys2Proof/Machine/FramingOps.lean ====
section
/-! DEFINITION. The framing units and the glare units (R79 to R86, R95 to R108): pan target, pan step, main window, level update and
handed set. -/

namespace Sys2Proof.Machine

/-! ## Framing -/

/-- The offset of |a| from the PAN nodes (R100). -/
def panOffset (pan : List Word) (a : Nat) : Nat :=
  let k := a / 25
  let r := a - 25 * k
  if 18 ≤ k then numAt pan 18
  else (((numAt pan k : Int) + ((numAt pan (k + 1) : Int) - (numAt pan k : Int)) * r / 25)).toNat

/-- The pan target of a side (R100). -/
def panTargetOf (x : Side) (art : Articulation) (pan : List Word) : Nat :=
  if art.stale then 0
  else
    match x with
    | .right => if 0 < art.angle then panOffset pan art.angle.toNat else 0
    | .left => if art.angle < 0 then panOffset pan art.angle.natAbs else 0

/-- The pan step (R102): pan_cur moves toward the target by at most the pan rate. -/
def panStep (cur target rate : Nat) : Nat :=
  if cur < target then min target (cur + rate) else if target < cur then max target (cur - rate) else cur

/-- A corner coordinate of the main window and its clamp mark, from the unclamped coordinate and the interval (R103). -/
def clampCorner (raw lo hi : Int) : Nat × ClampMark :=
  ((clamp raw lo hi).toNat, if raw < lo then .low else if hi < raw then .high else .unclamped)

/-- The windows of a frame (R103). -/
def windowsOf (l : Layout) (aimDx aimDy : Int) (panCur : Nat) : FrameWindows :=
  let h := l.mainHome
  let q := l.mainRequired
  let cx := clampCorner (h.x + aimDx + l.outward * panCur) (max 0 ((q.x : Int) + q.w - h.w)) (min q.x (960 - (h.w : Int)))
  let cy := clampCorner (h.y + aimDy) (max 0 ((q.y : Int) + q.h - h.h)) (min q.y (1280 - (h.h : Int)))
  { main := { x := cx.1, y := cy.1, w := h.w, h := h.h }, wide := l.wide, markX := cx.2, markY := cy.2 }

/-- The framing unit at a frame start: target, aim re-clamp, pan step, windows (R100, R102, R103). -/
def Framing.frameStart (f : Framing) (x : Side) (art : Articulation) (l : Layout) (pan : List Word) : Framing :=
  let target := panTargetOf x art pan
  let dx := clamp f.aimDx (-l.axMax) l.axMax
  let dy := clamp f.aimDy (-l.ayMax) l.ayMax
  let cur := panStep f.panCur target l.panRate
  { aimDx := dx, aimDy := dy, panTarget := target, panCur := cur, windows := some (windowsOf l dx dy cur) }

/-- AIM for one side (R105). -/
def Framing.aim (f : Framing) (l : Layout) (dx dy : Int) : Framing :=
  { f with aimDx := clamp dx (-l.axMax) l.axMax, aimDy := clamp dy (-l.ayMax) l.ayMax }

/-- The framing unit at a side restart (R108). -/
def Framing.restarted (f : Framing) : Framing :=
  { f with panTarget := 0, panCur := 0, windows := none }

/-! ## Glare -/

/-- The update of one zone (R83). -/
def GlareZone.update (z : GlareZone) (lit : Bool) (attack release hold : Nat) : GlareZone :=
  if lit then { level := min 15 (z.level + attack), hold := hold }
  else if 0 < z.hold then { level := z.level, hold := z.hold - 1 }
  else { level := z.level - release, hold := 0 }

/-- The update of the zones from the flags of the zones taken as lit (R83). -/
def updateZones (attack release hold : Nat) : List GlareZone → List Bool → List GlareZone
  | [], _ => []
  | zs, [] => zs
  | z :: zs, b :: bs => z.update b attack release hold :: updateZones attack release hold zs bs

/-- The attenuations of the zones' levels by a GLARE_ATT table (R86). -/
def handedSet (att : List Word) (zones : List GlareZone) : List Int := zones.map (fun z => intAt att z.level)

/-- The articulation record takes an angle (R99). -/
def State.setAngle (s : State) (angle : Int) : State :=
  let wasStale := s.artic.stale
  let s := { s with artic := { angle := clamp angle (-900) 900, tick := s.tick, stale := false } }
  if wasStale then s.endFault (.part .panInputStale) else s

/-- The articulation timer expires (R101). -/
def State.articulationExpiry (s : State) : State :=
  if s.artic.stale then s
  else if ticksSince s.tick s.artic.tick < 50000 then s
  else ({ s with artic := { s.artic with stale := true } }).raise (.part .panInputStale) (wordOfInt s.artic.angle)

end Sys2Proof.Machine
end

