-- ==== Sys2Proof/Machine/DevelopOps.lean ====
section
/-! DEFINITION. The development chain (R58 to R76): black level, defect replacement, demosaic, zone statistics, gain, tone, resampling
into panes, markers, and the words of the developed rows. -/

namespace Sys2Proof.Machine

/-! ## Raw samples (R58, R62, R63) -/

/-- The active defect set of a frame: the entries whose class is at or below the frame's temperature class (R58). -/
def activeDefects (c : TempClass) (es : List DefectEntry) : List (Nat × Nat) :=
  (es.filter (fun e => decide (e.cls.toNat ≤ c.code))).map (fun e => (e.row, e.col))

/-- A raw sample after black level (R62). -/
def blackLevel (black : Nat) (raw : Sample) : Nat := raw.toNat - black

/-- The defect columns of a row. -/
def defectColumns (defects : List (Nat × Nat)) (row : Nat) : List Nat :=
  (defects.filter (fun p => decide (p.1 = row))).map Prod.snd

/-- The same-colour neighbour at column - 2 is usable; `cols` are the defect columns of the row (R63). -/
def leftUsable (cols : List Nat) (col : Nat) : Bool := decide (2 ≤ col) && !cols.contains (col - 2)

/-- The same-colour neighbour at column + 2 is usable (R63). -/
def rightUsable (cols : List Nat) (col : Nat) : Bool := decide (col + 2 < 1920) && !cols.contains (col + 2)

/-- The replacement of the sample at a column of a row: `row` is the row after black level, `beyond` the row from which a sample
with no usable neighbour is taken (R63). -/
def replaceAt (cols : List Nat) (row beyond : List Nat) (col : Nat) : Nat :=
  match leftUsable cols col, rightUsable cols col with
  | true, true => (row.getD (col - 2) 0 + row.getD (col + 2) 0) / 2
  | true, false => row.getD (col - 2) 0
  | false, true => row.getD (col + 2) 0
  | false, false => beyond.getD col 0

/-- A row with its active defects replaced (R63). -/
def replaceRow (cols : List Nat) (row beyond : List Nat) : List Nat :=
  if cols = [] then row
  else row.zipIdx.map (fun p => if cols.contains p.2 then replaceAt cols row beyond p.2 else p.1)

/-! ## Cells and zone statistics (R64, R65) -/

/-- One cell row from its even and its odd sample row (R64). -/
def demosaic : List Nat → List Nat → List Cell
  | r :: g1 :: even, g2 :: b :: odd => { r := r, g := (g1 + g2) / 2, b := b } :: demosaic even odd
  | _, _ => []

/-- The bright threshold θ of a frame (R65). -/
def brightThreshold (tGlare : Int) (eF : Nat) : Nat := min 4095 (max 1 (powSteps (tGlare + eF).toNat))

/-- The accumulators of a zone with a run of its cells added (R65). -/
def ZoneAcc.addCells (z : ZoneAcc) (theta : Nat) (cells : List Cell) : ZoneAcc :=
  { green := z.green + (cells.map Cell.g).sum, bright := z.bright + cells.countP (fun c => decide (theta ≤ c.g)) }

/-- The zone accumulators with one cell row added (R65). -/
def addCellRow (theta cy : Nat) (cells : List Cell) (zones : List ZoneAcc) : List ZoneAcc :=
  zones.zipIdx.map (fun z =>
    if z.2 / 12 = cy / 80 then z.1.addCells theta ((cells.drop (80 * (z.2 % 12))).take 80) else z.1)

/-! ## Gain and tone (R66 to R69) -/

/-- The total gain of a channel (R66). -/
def totalGain (d : Nat) (wb z : Int) : Int := clamp ((d : Int) + wb + z) (-2048) 1024

/-- The linear value of a channel value under a total gain (R67). -/
def linearValue (s : Nat) (g : Int) : Nat :=
  let q := g / 256
  let f := (g - 256 * q).toNat
  let v :=
    if 0 ≤ q then (s * mt f * 2 ^ q.toNat + 16384) / 32768
    else (s * mt f + 2 ^ (14 + (-q).toNat)) / 2 ^ (15 + (-q).toNat)
  min 4095 v

/-- The tone stage (R68). The nodes of a curve do not decrease. -/
def toneValue (curve : List Nat) (v : Nat) : Nat :=
  let k := v / 64
  let r := v - 64 * k
  curve.getD k 0 + ((curve.getD (k + 1) 0 - curve.getD k 0) * r + 32) / 64

/-- The 8-bit output value (R69). -/
def outputValue (t : Nat) : Byte := BitVec.ofNat 8 (min 255 ((t + 2) / 4))

/-- One channel value from cell to output (R66 to R69). -/
def developChannel (curve : List Nat) (d : Nat) (wb z : Int) (s : Nat) : Byte :=
  outputValue (toneValue curve (linearValue s (totalGain d wb z)))

/-- The ROM linear curve of SERVICE geometry (R74). -/
def romLinear : List Nat := (List.range 65).map (fun k => min 1023 (16 * k))

/-! ## Panes, markers and rows (R70 to R74) -/

/-- A pane of the output frame: its first row, its height, its window and its steps (R70, R74). -/
structure Pane where
  firstRow : Nat
  height : Nat
  window : Window
  hstep : Nat
  vstep : Nat
  deriving DecidableEq, Repr

/-- The main and the wide pane of a LIVE frame (R70). -/
def livePanes (l : Layout) (main wide : Window) : List Pane :=
  [{ firstRow := 0, height := l.mainH, window := main, hstep := hstepOf main, vstep := vstepOf main l.mainH },
   { firstRow := l.mainH, height := 1280 - l.mainH, window := wide, hstep := hstepOf wide,
     vstep := vstepOf wide (1280 - l.mainH) }]

/-- The one pane of a SERVICE frame (R74). -/
def servicePanes : List Pane :=
  [{ firstRow := 0, height := 1280, window := { x := 0, y := 0, w := 960, h := 1280 }, hstep := 1365, vstep := 1024 }]

/-- The source cell row of row `yp` of a pane (R71). -/
def Pane.sourceRow (p : Pane) (yp : Nat) : Nat := p.window.y + yp * p.vstep / 1024

/-- The source cell column of output column x (R71). -/
def Pane.sourceCol (p : Pane) (x : Nat) : Nat := p.window.x + x * p.hstep / 1024

/-- The first row of a marker in its pane, if it is placed (R72). -/
def Pane.markerRow (p : Pane) (m : Marker) : Option Nat :=
  if p.window.y ≤ m.row ∧ m.row < p.window.y + p.window.h then
    (List.range p.height).find? (fun yp => decide (m.row ≤ p.sourceRow yp))
  else none

/-- The marker covers row `yp` of its pane (R72). -/
def Pane.covered (p : Pane) (m : Marker) (yp : Nat) : Bool :=
  match p.markerRow m with
  | some y0 => decide (y0 ≤ yp) && decide (yp < y0 + m.thickness)
  | none => false

/-- The colour of a marker (R73). -/
def markerColour : Nat → Pixel
  | 0 => { r := 255, g := 255, b := 255 }
  | 1 => { r := 255, g := 255, b := 0 }
  | 2 => { r := 255, g := 0, b := 0 }
  | _ => { r := 0, g := 255, b := 0 }

/-- The colour that covers row `yp` of a pane: that of the last of its markers that does (R73). -/
def Pane.rowColour (p : Pane) (markers : List Marker) (yp : Nat) : Option Pixel :=
  ((markers.filter (fun m => p.covered m yp)).getLast?).map (fun m => markerColour m.colour)

/-- What the gain and tone stages read while a frame develops (R66, R68, R74). -/
structure ToneInputs where
  curve : List Nat
  digital : Nat
  wbR : Int
  wbG : Int
  wbB : Int
  attenuations : List Int

/-- The developed pixel of a source cell (R66 to R69). -/
def developPixel (t : ToneInputs) (cells : List Cell) (cx cy : Nat) : Pixel :=
  let c := cells.getD cx { r := 0, g := 0, b := 0 }
  let z := t.attenuations.getD (12 * (cy / 80) + cx / 80) 0
  { r := developChannel t.curve t.digital t.wbR z c.r,
    g := developChannel t.curve t.digital t.wbG z c.g,
    b := developChannel t.curve t.digital t.wbB z c.b }

/-- Row `yp` of a pane, from its source cell row (R71, R73). -/
def Pane.row (p : Pane) (t : ToneInputs) (markers : List Marker) (cells : List Cell) (cy yp : Nat) : List Pixel :=
  match p.rowColour markers yp with
  | some c => List.replicate 720 c
  | none => (List.range 720).map (fun x => developPixel t cells (p.sourceCol x) cy)

/-- The markers of a pane in table order. -/
def markersOf (markers : List Marker) (wide : Bool) : List Marker := markers.filter (fun m => decide (m.wide = wide))

/-! ## Rows in words (R76, R117) -/

/-- The bytes of a row of pixels in order (R117). -/
def rowBytes (px : List Pixel) : List Byte := (px.map (fun p => [p.r, p.g, p.b])).flatten

/-- A 64-bit word of 8 bytes, lane 0 lowest (R117). -/
def wordOfBytes (b0 b1 b2 b3 b4 b5 b6 b7 : Byte) : BitVec 64 := b7 ++ b6 ++ b5 ++ b4 ++ b3 ++ b2 ++ b1 ++ b0

/-- The words of a run of bytes (R117). -/
def bytesToWords : List Byte → List (BitVec 64)
  | b0 :: b1 :: b2 :: b3 :: b4 :: b5 :: b6 :: b7 :: bs => wordOfBytes b0 b1 b2 b3 b4 b5 b6 b7 :: bytesToWords bs
  | _ => []

/-- The 8 bytes of a word in lane order (R117). -/
def wordToBytes (v : BitVec 64) : List Byte := (List.range 8).map (fun j => v.extractLsb' (8 * j) 8)

/-! ## The frame in flight (R59) -/

/-- A sample of the row is replaced from another row: a defect of the row has no usable neighbour (R63). -/
def replacedFromBeyond (cols : List Nat) : Bool :=
  cols.any (fun col => decide (col < 1920) && !leftUsable cols col && !rightUsable cols col)

/-- The sample row with which cell row 0 is complete (R63, R64). Sample rows 0 and 1 are replaced when row 1 has been received, unless
one of them has a defect that is replaced from the row two below it, which is row 3 for row 1 and row 2 for row 0 (log entry 29). -/
def firstRowAt (defects : List (Nat × Nat)) : Nat :=
  if replacedFromBeyond (defectColumns defects 1) then 3
  else if replacedFromBeyond (defectColumns defects 0) then 2
  else 1

/-- The cell rows that sample row n completes (R59, R64): cell row cy with sample row 2cy + 1, but cell row 0 with the row at which its
two sample rows have been replaced. -/
def completedRows (defects : List (Nat × Nat)) (n : Nat) : List Nat :=
  (if n = firstRowAt defects then [0] else []) ++ (if 3 ≤ n ∧ n % 2 = 1 then [n / 2] else [])

/-- Cell row cy, which sample row n completes, from the rows held newest first after that row (R62 to R64). -/
def cellRow (defects : List (Nat × Nat)) (recent : List (List Nat)) (n cy : Nat) : List Cell :=
  let rowAt := fun r => recent.getD (n - r) []
  let replaced := fun r => replaceRow (defectColumns defects r) (rowAt r) (rowAt (if 2 ≤ r then r - 2 else r + 2))
  demosaic (replaced (2 * cy)) (replaced (2 * cy + 1))

/-- The panes of the frame with their markers (R70, R74). -/
def framePanes (g : Geometry) (l : Layout) (inp : FrameInputs) : List (Pane × List Marker) :=
  match g with
  | .service => servicePanes.map (fun p => (p, []))
  | .live => (livePanes l inp.main inp.wide).zip [markersOf l.markers false, markersOf l.markers true]

/-- What the gain and tone stages read for the frame (R66, R68, R74). -/
def toneInputsOf (g : Geometry) (c : PerTable (List Word)) (inp : FrameInputs) : ToneInputs :=
  let sen := readSensor c.sensor
  { curve := match g with
      | .service => romLinear
      | .live => (c.get (TableId.tone (readProfile (c.get (TableId.profile inp.bank))).toneSlot)).map BitVec.toNat,
    digital := inp.exposure.digital, wbR := sen.wbR, wbG := sen.wbG, wbB := sen.wbB,
    attenuations := match g with
      | .service => []
      | .live => inp.attenuations }

/-- The rows of a pane that take a cell row as their source, with their output rows (R71, R76). -/
def paneRowsFrom (t : ToneInputs) (cells : List Cell) (cy : Nat) (p : Pane × List Marker) : List (Nat × List Pixel) :=
  ((List.range p.1.height).filter (fun yp => decide (p.1.sourceRow yp = cy))).map
    (fun yp => (p.1.firstRow + yp, p.1.row t p.2 cells cy yp))

/-- Output rows are written into a slot (R76, R117). -/
def State.writeRows (x : Side) (n : SlotNo) : List (Nat × List Pixel) → State → State
  | [], s => s
  | r :: rs, s => State.writeRows x n rs (s.writeFrameWords x (frameAddr x n r.1 0) (bytesToWords (rowBytes r.2)))

/-- A completed cell row of the frame in flight: it is added to the zone accumulators, and the output rows that take it as their
source are written into the slot (R59, R65, R76). -/
def State.developCellRow (x : Side) (inp : FrameInputs) (cells : List Cell) (cy : Nat) (s : State) : State :=
  let c := s.copies x
  let g := (s.side x).dev.geometry.getD .live
  let theta := brightThreshold (readProfile (c.get (TableId.profile inp.bank))).tGlare inp.exposure.total
  let s := s.onSide x (fun d => { d with dev := { d.dev with zones := addCellRow theta cy cells d.dev.zones } })
  match inp.slot with
  | none => s
  | some n =>
    let t := toneInputsOf g c inp
    State.writeRows x n ((framePanes g (readLayout c.layout) inp).map (paneRowsFrom t cells cy)).flatten s

/-- Active line n of the frame in flight reaches the developer (R59). -/
def State.developLine (s : State) (x : Side) (n : Nat) (raw : List Sample) : State :=
  let d := (s.side x).dev
  match d.frame, d.inputs with
  | some _, some inp =>
    let row := raw.map (blackLevel ((s.sensorOf x).black inp.tempClass))
    let recent := (row :: d.recent).take 4
    let s := s.onSide x (fun d => { d with dev := { d.dev with recent := recent } })
    (completedRows inp.defects n).foldl
      (fun s cy => State.developCellRow x inp (cellRow inp.defects recent n cy) cy s) s
  | _, _ => s

/-- The developer returns to IDLE with its accumulators at zero. At a discard R61 sets them to zero. At a good frame end R60 only closes
them and hands them over, and R65 sets them to zero at the next frame start; that they are zero, and no row is held, in between is a
DESIGN CHOICE (log entry 40). -/
def Developer.idle (d : Developer) : Developer :=
  { d with frame := none, inputs := none, zones := zeroZones, recent := [] }

end Sys2Proof.Machine
end

