-- ==== Sys2Proof/Machine/SlotOps.lean ====
section
/-! DEFINITION. The frame store's slots (R109 to R116) and the outcomes of the frame records (R115). -/

namespace Sys2Proof.Machine

/-- The slot numbers in order. -/
def SlotNo.all : List SlotNo := [.s0, .s1, .s2]

/-- The lowest slot in a state. -/
def Slots.find (p : Slots) (st : SlotState) : Option SlotNo := SlotNo.all.find? (fun n => decide ((p.get n).state = st))

/-- An outcome is written into the frame record that a slot links to; a record that has left the history takes none (R115). -/
def writeOutcome (h : List FrameRecord) (serial : Nat) (o : FrameOutcome) : List FrameRecord :=
  h.map (fun r => if r.serial = serial then { r with outcome := o } else r)

/-- A slot becomes FREE and loses its tag, source record and link; its DAMAGED flag stays (R109, R110). -/
def Slot.freed (a : Slot) : Slot := { state := .free, damaged := a.damaged, content := none }

/-- A slot becomes FREE, and the outcome is written into its linked record (R111 to R113, R115). -/
def SideState.freeSlot (d : SideState) (n : SlotNo) (o : FrameOutcome) : SideState :=
  let a := d.store.slots.get n
  { d with
    store := { d.store with slots := d.store.slots.set n a.freed },
    history := match a.content with
      | some c => writeOutcome d.history c.link o
      | none => d.history }

/-- At a frame start the lowest FREE slot becomes FILLING for the frame (R110). -/
def SideState.fillSlot (d : SideState) (g : Geometry) (f : FrameNo) (arrival : Tick) (serial : Nat) : Option SlotNo × SideState :=
  match d.store.slots.find .free with
  | none => (none, d)
  | some n =>
    (some n,
      { d with store := { d.store with
          slots := d.store.slots.set n
            { state := .filling, damaged := false,
              content := some { geometry := g, source := { frame := f, arrival := arrival }, link := serial } } } })

/-- The slot's state with its contents kept. -/
def SideState.setSlotState (d : SideState) (n : SlotNo) (st : SlotState) : SideState :=
  { d with store := { d.store with slots := d.store.slots.set n { d.store.slots.get n with state := st } } }

/-- At a good frame end the FILLING slot becomes READY; an older READY slot is freed first as SKIPPED (R111). -/
def SideState.readySlot (d : SideState) : SideState :=
  match d.store.slots.find .filling with
  | none => d
  | some n =>
    let d := match d.store.slots.find .ready with
      | some m => d.freeSlot m .skipped
      | none => d
    d.setSlotState n .ready

/-- At a discard the FILLING slot becomes FREE with outcome DISCARDED (R112). -/
def SideState.discardSlot (d : SideState) : SideState :=
  match d.store.slots.find .filling with
  | none => d
  | some n => d.freeSlot n .discarded

/-- The READY slot of a side is resolved at an output frame start (R113): true for FRESH. -/
def SideState.resolveSlots (d : SideState) (mode : OutputMode) (now : Tick) (ageLimit : Nat) : Bool × SideState :=
  match d.store.slots.find .ready with
  | none => (false, d)
  | some n =>
    match (d.store.slots.get n).content with
    | none => (false, d)
    | some c =>
      if c.geometry ≠ mode.geometry then (false, d.freeSlot n .skipped)
      else if ageLimit < ticksSince now c.source.arrival then (false, d.freeSlot n .stale)
      else
        let d := match d.store.slots.find .showing with
          | some m => { d with store := { d.store with slots := d.store.slots.set m (d.store.slots.get m).freed } }
          | none => d
        (true, { d.setSlotState n .showing with history := writeOutcome d.history c.link .shown })

/-- The clean count when an output frame of the side is closed at the next output frame start (R123). DEDUCED: its place
among the steps of R133 (log entry 23). -/
def State.closeOutputFrame (s : State) (x : Side) : State :=
  let d := s.side x
  match d.comp.content with
  | none => s
  | some _ =>
    let n := if d.store.frameDirty then d.store.cleanCount else satSucc d.store.cleanCount 60
    let s := s.onSide x (fun d => { d with store := { d.store with cleanCount := n, frameDirty := false } })
    if d.store.frameDirty = false ∧ n = 60 ∧ d.store.fseCond then
      (s.onSide x (fun d => { d with store := { d.store with fseCond := false } })).endFault (.side .frameStoreError x)
    else s

/-- The side's slots and frame-store condition at a side restart (R116, R123). -/
def SideStore.restarted (t : SideStore) : SideStore :=
  { t with
    slots := { s0 := t.slots.s0.freed, s1 := t.slots.s1.freed, s2 := t.slots.s2.freed },
    cleanCount := 0, fseCond := false }

end Sys2Proof.Machine
end

