-- ==== Sys2Proof/Machine/ComposerOps.lean ====
section
/-! DEFINITION. The output composer (R130 to R152): view state, content, warning sample, frame header, echo check, patterns, overlays
and the lines it forms. -/

namespace Sys2Proof.Machine

/-! ## View state (R137 to R140, R143) -/

/-- What a view state transition reports (R139, R143). -/
inductive ViewReport where
  | setStale
  | setLost (detail : Nat)
  | endStale
  | endLost
  deriving DecidableEq, Repr

/-- The counts after step 4's first part (R137). -/
def Composer.count (c : Composer) (fresh : Bool) : Composer :=
  if fresh then { c with repeatCount := 0 }
  else
    { c with
      repeatCount := satSucc c.repeatCount 255,
      startCount := if c.view = .starting then satSucc c.startCount 600 else c.startCount }

/-- The view state transition from the counts just brought up to date, with the reports it makes, in order (R138 to R140, R143). -/
def Composer.move (c : Composer) (l : Layout) (fresh : Bool) : List ViewReport × Composer :=
  match c.view, fresh with
  | .starting, true => ([], { c with view := .liveOk, startCount := 0 })
  | .starting, false =>
    if l.startLimit ≤ c.startCount then ([.setLost c.startCount], { c with view := .lost, startCount := 0 }) else ([], c)
  | .liveOk, true => ([], c)
  | .liveOk, false =>
    if l.blank ≤ c.repeatCount then ([.setLost c.repeatCount], { c with view := .lost })
    else if l.caution ≤ c.repeatCount then ([.setStale], { c with view := .stale })
    else ([], c)
  | .stale, true => ([.endStale], { c with view := .liveOk })
  | .stale, false =>
    if l.blank ≤ c.repeatCount then ([.endStale, .setLost c.repeatCount], { c with view := .lost }) else ([], c)
  | .lost, true =>
    if l.recovery ≤ 1 then ([.endLost], { c with view := .liveOk, recovery := 0 })
    else ([], { c with view := .recovering, recovery := 1 })
  | .lost, false => ([], { c with recovery := 0 })
  | .recovering, true =>
    if l.recovery ≤ c.recovery + 1 then ([.endLost], { c with view := .liveOk, recovery := 0 })
    else ([], { c with recovery := c.recovery + 1 })
  | .recovering, false => ([], { c with view := .lost, recovery := 0 })

/-- The composer of a side is changed. -/
def State.onComp (s : State) (x : Side) (f : Composer → Composer) : State :=
  s.onSide x (fun d => { d with comp := f d.comp })

/-- One report of the view state machine (R143). -/
def State.reportView (x : Side) (s : State) : ViewReport → State
  | .setStale =>
    (s.onComp x (fun c => { c with staleCond := true })).raise (.side .viewStale x) (wordOf (s.side x).comp.repeatCount)
  | .setLost n => (s.onComp x (fun c => { c with lostCond := true })).raise (.side .viewLost x) (wordOf n)
  | .endStale => (s.onComp x (fun c => { c with staleCond := false })).endFault (.side .viewStale x)
  | .endLost => (s.onComp x (fun c => { c with lostCond := false })).endFault (.side .viewLost x)

/-- Step 4 of an output frame start (R133, R137 to R140, R143). -/
def State.updateView (s : State) (x : Side) (fresh : Bool) : State :=
  let r := ((s.side x).comp.count fresh).move (s.layoutOf x) fresh
  r.1.foldl (State.reportView x) (s.onComp x (fun _ => r.2))

/-! ## Content (R135, R141) -/

/-- The picture of the SHOWING slot (R113, R135): the pattern where the slot is DAMAGED and repeated (R141). A side in LIVE_OK or STALE
has a SHOWING slot; without one there is no picture to show (DESIGN CHOICE, log entry 24). -/
def pictureOf (d : SideState) (fresh : Bool) (now : Tick) : Content :=
  match d.store.slots.find .showing with
  | none => .viewLost
  | some n =>
    let a := d.store.slots.get n
    match a.content with
    | none => .viewLost
    | some c => if fresh = false ∧ a.damaged = true then .viewLost else .picture n c.source (now - c.source.arrival)

/-- The content of an output frame from the mode in force and the view state (R135). -/
def contentOf (d : SideState) (fresh : Bool) (now : Tick) : Content :=
  match d.comp.mode with
  | .pattern => .colourBars
  | .live | .service =>
    match d.comp.view with
    | .starting => .viewStarting
    | .liveOk | .stale => pictureOf d fresh now
    | .lost | .recovering => .viewLost

/-- The content of the rest of an output frame after a side restart (R151). -/
def contentAfterRestart : OutputMode → Content
  | .pattern => .colourBars
  | .live | .service => .viewStarting

/-! ## Warning sample (R144) -/

/-- The records relevant to a side (R144). -/
def relevantRecords (x : Side) : List RecordId := RecordId.ofSide x ++ [.part .panInputStale, .part .errorCorrected]

/-- A relevant record of the severity is in the state. -/
def State.someRecord (s : State) (x : Side) (v : Severity) (st : RecordState) : Bool :=
  (relevantRecords x).any (fun i => decide (i.severity = v) && decide ((s.faults.get i).state = st))

/-- The warning sample of a side (R144). -/
def State.warningSample (s : State) (x : Side) : Overlay :=
  if s.someRecord x .fault .active then .redBand
  else if s.someRecord x .caution .active then .amberBand
  else if s.someRecord x .fault .acked then .redSquare
  else if s.someRecord x .caution .acked then .amberSquare
  else .clear

/-! ## Echo check (R148, R149) -/

/-- The outcome of an echo check (R148). -/
inductive EchoOutcome where
  | bad (detail : Word)
  | waiting
  | good
  deriving DecidableEq, Repr

/-- The lag of the held status word (R148). -/
def Composer.lag (c : Composer) : Option Nat :=
  c.status.map (fun w => (c.frameCount - 1 - w.echo).toNat)

/-- The echo check: the counts after it and its outcome (R148). -/
def Composer.echoCheck (c : Composer) : EchoOutcome × Composer :=
  let silence := satSucc c.silence 255
  let strikes := match c.lag with
    | some n => if 3 < n then satSucc c.lagStrikes 2 else 0
    | none => 0
  let panel := match c.status with
    | some w => w.panelFault
    | none => false
  let detail := match c.lag with
    | some n => wordOf (min n 65535)
    | none => wordOf 65535
  let c := { c with silence := silence, lagStrikes := strikes }
  if 6 ≤ silence ∨ panel = true ∨ strikes = 2 then (.bad detail, c)
  else if strikes = 1 then (.waiting, c)
  else (.good, c)

/-- Step 7 of an output frame start: the echo check and DISPLAY_FREEZE (R148, R149). -/
def State.checkEcho (s : State) (x : Side) : State :=
  if s.isUp x then
    let r := (s.side x).comp.echoCheck
    match r.1 with
    | .bad detail =>
      (s.onComp x (fun _ => { r.2 with goodChecks := 0, freezeCond := true })).raise (.side .displayFreeze x) detail
    | .waiting => s.onComp x (fun _ => { r.2 with goodChecks := 0 })
    | .good =>
      let n := satSucc r.2.goodChecks 2
      if n = 2 ∧ r.2.freezeCond = true then
        (s.onComp x (fun _ => { r.2 with goodChecks := 0, freezeCond := false })).endFault (.side .displayFreeze x)
      else s.onComp x (fun _ => { r.2 with goodChecks := n })
  else s

/-! ## Packets (R146, R211) -/

/-- The frame header packet (R146, R211). -/
def headerPacket (c : Composer) : List Word :=
  let src : List Word := match c.content with
    | some (.picture _ f age) => f.frame :: (wordsOf32 f.arrival ++ wordsOf32 age)
    | _ => [0, 0, 0, 0, 0]
  let present := match c.content with
    | some (.picture _ _ _) => 1
    | _ => 0
  packetOf 0x0B01
    (wordsOf32 c.frameCount ++ src ++
      [wordOf (c.repeatCount % 256 + 256 * (c.frameCount.toNat % 256)),
       wordOf (c.mode.code + 16 * c.view.code + 256 * present)])

/-! ## Lines (R136, R144, R145) -/

/-- A grey pixel. -/
def grey (v : Byte) : Pixel := { r := v, g := v, b := v }

/-- The colours of the eight bars (R136). -/
def barColour : Nat → Pixel
  | 0 => { r := 255, g := 255, b := 255 }
  | 1 => { r := 255, g := 255, b := 0 }
  | 2 => { r := 0, g := 255, b := 255 }
  | 3 => { r := 0, g := 255, b := 0 }
  | 4 => { r := 255, g := 0, b := 255 }
  | 5 => { r := 255, g := 0, b := 0 }
  | 6 => { r := 0, g := 0, b := 255 }
  | _ => { r := 0, g := 0, b := 0 }

/-- A line of the colour bars (R136). -/
def barLine : List Pixel := (List.range 720).map (fun x => barColour (x / 90))

/-- The bytes of a row as delivered: none for each byte of an uncorrectable word (R122). -/
def deliveredBytes (ws : List (Option (BitVec 64))) : List (Option Byte) :=
  (ws.map (fun w => match w with
    | some v => (wordToBytes v).map some
    | none => List.replicate 8 none)).flatten

/-- The pixels of a row as delivered; a pixel with a byte in an uncorrectable word is black (R117, R122). -/
def deliveredPixels : List (Option Byte) → List Pixel
  | some r :: some g :: some b :: rest => { r := r, g := g, b := b } :: deliveredPixels rest
  | _ :: _ :: _ :: rest => grey 0 :: deliveredPixels rest
  | _ => []

/-- The colour of a band or square (R144). -/
def Overlay.colour : Overlay → Pixel
  | .redBand | .redSquare => { r := 255, g := 0, b := 0 }
  | .amberBand | .amberSquare => { r := 255, g := 176, b := 0 }
  | .clear => grey 0

/-- The overlay covers the pixel at column x of row y (R144). -/
def Overlay.covers (o : Overlay) (x y : Nat) : Bool :=
  match o with
  | .redBand | .amberBand => decide (y < 24)
  | .redSquare | .amberSquare => decide (y < 24) && decide (696 ≤ x)
  | .clear => false

/-- A line with the band or square and then the liveness patch drawn on it (R144, R145). -/
def overlayLine (o : Overlay) (l : Byte) (y : Nat) (px : List Pixel) : List Pixel :=
  px.zipIdx.map (fun p =>
    if 1264 ≤ y ∧ p.2 < 16 then grey l else if o.covers p.2 y then o.colour else p.1)

/-- The pixels of the content of an active line; `picture` is the row as read, where the content is a picture (R135, R136). -/
def contentLine (c : Content) (picture : List Pixel) : List Pixel :=
  match c with
  | .picture _ _ _ => picture
  | .viewStarting => List.replicate 720 (grey 64)
  | .viewLost => List.replicate 720 (grey 128)
  | .colourBars => barLine

/-- Active line y of the present output frame of a composer (R131, R145). -/
def Composer.line (c : Composer) (y : Nat) (picture : List Pixel) : List Pixel :=
  match c.content with
  | none => []
  | some k => overlayLine (c.warning.getD .clear) (c.frameCount.setWidth 8) y (contentLine k picture)

/-! ## Output frame start (R133) -/

/-- An output frame start of a side (R123, R133). -/
def State.startOutputFrame (s : State) (x : Side) : State :=
  let s := s.onComp x (fun c => { c with frameCount := c.frameCount + 1, mode := c.requested })
  let r := (s.side x).resolveSlots (s.side x).comp.mode s.tick (s.layoutOf x).ageLimit
  let s := (s.onSide x (fun _ => r.2)).closeOutputFrame x
  let s := s.updateView x r.1
  let s := s.onComp x (fun c => { c with content := some (contentOf (s.side x) r.1 s.tick) })
  let s := s.onComp x (fun c => { c with warning := some (s.warningSample x) })
  let s := s.checkEcho x
  s.onComp x (fun c => { c with header := some (headerPacket c) })

/-- The composer at a side restart (R151). -/
def Composer.restarted (c : Composer) : Composer :=
  { c with
    view := .starting, repeatCount := 0, startCount := 0, recovery := 0,
    staleCond := false, lostCond := false, freezeCond := false,
    lagStrikes := 0, goodChecks := 0, silence := 0,
    content := c.content.map (fun _ => contentAfterRestart c.mode) }

/-- The composer forgets its status word when its link enters UP (R152). -/
def Composer.linkUp (c : Composer) : Composer :=
  { c with status := none, silence := 0, lagStrikes := 0, goodChecks := 0 }

end Sys2Proof.Machine
end

