-- ==== Sys2Proof/Machine/LinkOps.lean ====
section
/-! DEFINITION. The link ports, the forward slot and the DRAM port's rotation (R118, R131, R184 to R188, R191 to R195). -/

namespace Sys2Proof.Machine

/-! ## Link states (R187, R188, R191 to R193) -/

/-- The records in force of a side are handed over to the other link (R187). -/
def State.handOver (s : State) (x : Side) : State :=
  if s.isUp x.other then
    ((RecordId.ofSide x).filter (fun i => decide ((s.faults.get i).state ≠ .clear))).foldl (fun s i => s.queueOn x.other i) s
  else s

/-- The reservation of a side's pending commit is dropped if the link holds it (R162, R192). -/
def SideTables.dropReservation (d : SideTables) (l : Side) : SideTables :=
  { d with commit := d.commit.map (fun c => if c.link = some l then { c with link := none } else c) }

/-- DISPLAY_LINK_DOWN is set for the link's side, if the link has been UP (R192, R193). -/
def State.setLinkDown (s : State) (l : Side) (detail : Word) : State :=
  if (s.link l).beenUp then
    (s.onLink l (fun k => { k with linkCond := true })).raise (.side .displayLinkDown l) detail
  else s

/-- A link enters DOWN (R51, R187, R192); the detail is the state it leaves. -/
def State.enterDown (s : State) (l : Side) (detail : Word) : State :=
  let s := s.onLink l (fun k =>
    { k with state := .down, replies := [], overrun := false, notices := [], forward := none })
  let s := s.onSide .left (fun d => { d with tables := d.tables.dropReservation l })
  let s := s.onSide .right (fun d => { d with tables := d.tables.dropReservation l })
  let s := s.onSide l (fun d => { d with exposure := { d.exposure with trim := 0 } })
  (s.handOver l).setLinkDown l detail

/-- The notice queue of a link that has come UP is rebuilt (R188). -/
def State.rebuild (s : State) (l : Side) : State :=
  (RecordId.all.filter (fun i => decide ((s.faults.get i).state ≠ .clear) && s.routesTo i l)).foldl
    (fun s i => s.queueOn l i) s

/-- A link enters UP (R152, R188, R193). -/
def State.enterUp (s : State) (l : Side) : State :=
  let s := s.onLink l (fun k => { k with state := .up, beenUp := true })
  let s :=
    if (s.link l).linkCond then
      (s.onLink l (fun k => { k with linkCond := false })).endFault (.side .displayLinkDown l)
    else s
  (s.rebuild l).onComp l Composer.linkUp

/-! ## The forward slot (R185, R186, R194, R211) -/

/-- The notice packet of a record (R185, R211). -/
def noticePacket (i : RecordId) (r : FaultRecord) : List Word :=
  packetOf 0x0B03
    [wordOf (i.index + 256 * i.classCode), wordOf (r.state.code + 256 * (r.count % 256)), r.detail]

/-- The reply packet of a reply with its overrun mark (R194, R197, R211). -/
def replyPacket (r : Reply) (overrun : Bool) : List Word :=
  let refused := if r.reason.isSome then 256 else 0
  let mark := if overrun then 512 else 0
  let code := match r.reason with
    | some q => q.code
    | none => 0
  packetOf 0x0B02 ([wordOf (r.tag.toNat + refused + mark), wordOf (code + 256 * (r.data.length % 256))] ++ r.data)

/-- What the arbiter chooses for a slot (R186). -/
inductive SlotChoice where
  | notice (i : RecordId)
  | reply (r : Reply)
  | empty
  deriving DecidableEq, Repr

/-- The reply of an entry that is ready to be sent. -/
def ReplyEntry.reply? : ReplyEntry → Option Reply
  | .ready r => some r
  | .reserved _ _ => none

/-- The arbiter's choice from what the queues hold (R186). -/
def Link.choose (k : Link) : SlotChoice :=
  match k.notices.find? (fun i => decide (i.severity = .fault)) with
  | some i => .notice i
  | none =>
    match k.replies.findSome? ReplyEntry.reply? with
    | some r => .reply r
    | none =>
      match k.notices.head? with
      | some i => .notice i
      | none => .empty

/-- The oldest ready reply leaves the queue (R194). -/
def dropReady : List ReplyEntry → List ReplyEntry
  | [] => []
  | .ready _ :: es => es
  | .reserved tag x :: es => .reserved tag x :: dropReady es

/-- The arbiter hands the slot of a line period of an UP link: the packet sent and the link after it (R185, R186, R194). -/
def Link.arbitrate (k : Link) (f : FaultTable) : Option (List Word) × Link :=
  match k.choose with
  | .notice i => (some (noticePacket i (f.get i)), { k with notices := k.notices.erase i })
  | .reply r => (some (replyPacket r k.overrun), { k with replies := dropReady k.replies, overrun := false })
  | .empty => (none, k)

/-- The packet slot of line period `period` on a link: the header in period 0, the arbiter's choice in the others; nothing while the
link is not UP (R131, R146, R186, R194). -/
def State.sendSlot (s : State) (l : Side) (period : Fin 1300) : State :=
  if s.isUp l then
    if period = 0 then
      s.onLink l (fun k => { k with forward := some { period := 0, packet := (s.side l).comp.header, pixels := [] } })
    else
      let r := (s.link l).arbitrate s.faults
      s.onLink l (fun _ => { r.2 with forward := some { period := period, packet := r.1, pixels := [] } })
  else s.onLink l (fun k => { k with forward := none })

/-! ## Reads of a line period (R118, R120) -/

/-- The clients of the DRAM port in rotation order (R118). -/
def DramClient.after : DramClient → DramClient
  | .leftDeveloper => .rightDeveloper
  | .rightDeveloper => .leftComposer
  | .leftComposer => .rightComposer
  | .rightComposer => .leftDeveloper

/-- The composer whose turn is next, of those with reads waiting; in a line period no developer has an access waiting that a read
could be ordered against (R118). -/
def nextComposer (last : DramClient) (leftWaits rightWaits : Bool) : Option Side :=
  match leftWaits, rightWaits with
  | true, true => if last = .leftComposer then some .right else some .left
  | true, false => some .left
  | false, true => some .right
  | false, false => none

/-- A side's reads of a line period: the slot, the addresses still to be read, and the words delivered, newest first. -/
structure LineReads where
  slot : SlotNo
  waiting : List Nat
  delivered : List (Option (BitVec 64))
  deriving DecidableEq, Repr

/-- The reads of both composers in a line period, served in rotation (R118, R120). `fuel` bounds the number of accesses. -/
def State.serveReads : Nat → Sided LineReads → State → Sided LineReads × State
  | 0, q, s => (q, s)
  | n + 1, q, s =>
    match nextComposer s.frameStore.lastServed (!q.left.waiting.isEmpty) (!q.right.waiting.isEmpty) with
    | none => (q, s)
    | some x =>
      let k := q.get x
      match k.waiting with
      | [] => (q, s)
      | a :: rest =>
        let r := s.readFrameWord x k.slot a
        State.serveReads n (q.set x { k with waiting := rest, delivered := r.1 :: k.delivered }) r.2

/-- The reads a side makes in the line period of active line y: the 270 words of the row, where the content is a picture (R120,
R135). -/
def State.lineReads (s : State) (x : Side) (y : Nat) : LineReads :=
  match (s.side x).comp.content with
  | some (.picture n _ _) => { slot := n, waiting := (List.range 270).map (frameAddr x n y), delivered := [] }
  | _ => { slot := .s0, waiting := [], delivered := [] }

/-- The pixels of an active line go forward on the side's link, if it is UP (R131). -/
def State.sendPixels (s : State) (x : Side) (y : Nat) (ws : List (Option (BitVec 64))) : State :=
  let px := (s.side x).comp.line y (deliveredPixels (deliveredBytes ws))
  s.onLink x (fun k => { k with forward := k.forward.map (fun f => { f with pixels := px }) })

/-- A line period of the output frames of both sides (R118, R131, R186): the slots are arbitrated from what the queues hold at its
start, and in an active line the rows are read in rotation and the lines formed. -/
def State.linePeriod (s : State) (period : Fin 1300) : State :=
  let s := (s.sendSlot .left period).sendSlot .right period
  let s := { s with frameStore := { s.frameStore with lastServed := .rightComposer } }
  if period.val < 20 then s
  else
    let y := period.val - 20
    let r := State.serveReads 540 { left := s.lineReads .left y, right := s.lineReads .right y } s
    (r.2.sendPixels .left y r.1.left.delivered.reverse).sendPixels .right y r.1.right.delivered.reverse

end Sys2Proof.Machine
end

