-- ==== Sys2Proof/Machine/LinkEvents.lean ====
section
/-! DEFINITION. The meanings of the link events and of the reverse packets that are not a known directive: TRAINING_REQUEST, READY,
LOSS_OF_LOCK, STATUS_WORD, PACKET_DROPPED and UNKNOWN_DIRECTIVE (R147, R191, R195, R198). -/

namespace Sys2Proof.Machine

/-- A training request on a link (R191). -/
def State.trainingRequest (s : State) (l : Side) : State :=
  match (s.link l).state with
  | .down => s.onLink l (fun k => { k with state := .training })
  | .training => s
  | .up => (s.enterDown l 1).onLink l (fun k => { k with state := .training })

/-- TRAINING_REQUEST (R191). -/
def execTrainingRequest (l : Side) (s : State) : Host.Outcome State Fault Refusal :=
  s.take (fun s => s.trainingRequest l)

/-- READY on a link (R191, R193). -/
def State.linkReady (s : State) (l : Side) : State :=
  match (s.link l).state with
  | .down => s
  | .training => s.enterUp l
  | .up => s

/-- READY (R191). -/
def execReady (l : Side) (s : State) : Host.Outcome State Fault Refusal :=
  s.take (fun s => s.linkReady l)

/-- Loss of lock on a link (R191, R192). -/
def State.lossOfLock (s : State) (l : Side) : State :=
  match (s.link l).state with
  | .down => s
  | .training => s.enterDown l 2
  | .up => s.enterDown l 1

/-- LOSS_OF_LOCK (R191). -/
def execLossOfLock (l : Side) (s : State) : Host.Outcome State Fault Refusal :=
  s.take (fun s => s.lossOfLock l)

/-- A status word is handed to the side's composer while its link is UP (R147, R195, R211). -/
def State.statusWord (s : State) (l : Side) (echo : BitVec 32) (panel : Word) : State :=
  if s.isUp l then
    s.onComp l (fun c => { c with status := some { echo := echo, panelFault := decide (panel ≠ 0) }, silence := 0 })
  else s

/-- STATUS_WORD (R147). -/
def execStatusWord (l : Side) (echo : BitVec 32) (panel : Word) (s : State) : Host.Outcome State Fault Refusal :=
  s.take (fun s => s.statusWord l echo panel)

/-- PACKET_DROPPED: a reverse packet with a wrong check word or an unknown kind word reaches no block (R195, R211). -/
def execPacketDropped (s : State) : Host.Outcome State Fault Refusal :=
  s.take (fun s => s)

/-- UNKNOWN_DIRECTIVE: an admitted packet whose code names no directive is refused (R198). -/
def execUnknownDirective (l : Side) (p : Packet) (s : State) : Host.Outcome State Fault Refusal :=
  s.take (fun s => s.admission l p.tag (fun s => (.refused .unknownDirective [], s)))

end Sys2Proof.Machine
end

