-- ==== Sys2Proof/Machine/OutputTiming.lean ====
section
/-! DEFINITION. The meanings of the events of the part's own timing: ARTICULATION_TIMER_EXPIRY, OUTPUT_FRAME_START and
LINE_PERIOD_START (R101, R133, R186). -/

namespace Sys2Proof.Machine

/-- ARTICULATION_TIMER_EXPIRY (R101): without effect while stale_cond is set or the timer has not run out (log entry 7). -/
def execArticulationTimerExpiry (s : State) : Host.Outcome State Fault Refusal :=
  s.take State.articulationExpiry

/-- OUTPUT_FRAME_START of a side (R133). -/
def execOutputFrameStart (x : Side) (s : State) : Host.Outcome State Fault Refusal :=
  s.take (fun s => s.startOutputFrame x)

/-- LINE_PERIOD_START (R118, R131, R186): one event of both sides (log entry 8). -/
def execLinePeriodStart (period : Fin 1300) (s : State) : Host.Outcome State Fault Refusal :=
  s.take (fun s => s.linePeriod period)

end Sys2Proof.Machine
end

