-- ==== Sys2Proof/Machine/ReadItems.lean ====
section
/-! DEFINITION. The meanings of the READ_ITEM directives (R199). Each packet's item code is checked against its item's. -/

namespace Sys2Proof.Machine

/-- A read of one side's state: the side field reads LEFT or RIGHT (R199). -/
def State.readSide (s : State) (l : Side) (p : Packet) (item : Word) (body : Side → State → Response × State) : State :=
  s.readItem l p item (fun s =>
    match sideField p.side with
    | some x => body x s
    | none => (.refused .badArgument [], s))

/-- READ_ITEM FRAME_HISTORY (R200). -/
def execFrameHistory (l : Side) (p : Packet) (s : State) : Host.Outcome State Fault Refusal :=
  s.take (fun s => s.readSide l p 0 (fun x s =>
    if 7 < p.s1.toNat then (.refused .badArgument [], s)
    else (.done (historyWords (s.side x).history p.s1.toNat), s)))

/-- READ_ITEM FAULT_RECORD (R181). -/
def execFaultRecord (l : Side) (p : Packet) (s : State) : Host.Outcome State Fault Refusal :=
  s.take (fun s => s.readItem l p 1 (fun s =>
    match RecordId.all[p.s1.toNat]? with
    | some i => (.done (s.faultWords i), s)
    | none => (.refused .badArgument [], s)))

/-- READ_ITEM ERROR_LOG (R129, R173). -/
def execErrorLog (l : Side) (p : Packet) (s : State) : Host.Outcome State Fault Refusal :=
  s.take (fun s => s.readItem l p 2 (fun s =>
    if p.s1 = 1 then (.done (errorLogWords s.frameStore.log s.frameStore.injection s.corrCond), s)
    else if p.s1 = 2 then (.done (errorLogWords s.tableStore.log s.tableStore.injection s.corrCond), s)
    else (.refused .badArgument [], s)))

/-- READ_ITEM EXPOSURE_STATE (R49). -/
def execExposureState (l : Side) (p : Packet) (s : State) : Host.Outcome State Fault Refusal :=
  s.take (fun s => s.readSide l p 3 (fun x s => (.done (exposureWords (s.side x).exposure), s)))

/-- READ_ITEM GLARE_LEVELS (R92). -/
def execGlareLevels (l : Side) (p : Packet) (s : State) : Host.Outcome State Fault Refusal :=
  s.take (fun s => s.readSide l p 4 (fun x s =>
    if 15 < p.s1.toNat then (.refused .badArgument [], s)
    else (.done (glareWords (s.side x).glare p.s1.toNat), s)))

/-- READ_ITEM WINDOW_STATE (R106). -/
def execWindowState (l : Side) (p : Packet) (s : State) : Host.Outcome State Fault Refusal :=
  s.take (fun s => s.readSide l p 5 (fun x s => (.done (windowStateWords (s.side x).framing s.artic), s)))

/-- READ_ITEM SLOT_STATE (R128). -/
def execSlotState (l : Side) (p : Packet) (s : State) : Host.Outcome State Fault Refusal :=
  s.take (fun s => s.readSide l p 6 (fun x s => (.done (slotStateWords (s.side x).store), s)))

/-- READ_ITEM TABLE_STATE (R173). -/
def execTableState (l : Side) (p : Packet) (s : State) : Host.Outcome State Fault Refusal :=
  s.take (fun s => s.readSide l p 7 (fun x s => (.done (s.tableStateWords x), s)))

/-- The data of a pool word that is rewritten with its entry but not read: the word's own, a stored single-bit error corrected; where the
stored bits are uncorrectable the spec states no value, and it is free (R169, R170). DESIGN CHOICE (log entry 9). -/
def keptWord (w : BitVec 22) : Word :=
  match checkWord 5 w with
  | .clean => dataOf 16 w
  | .corrected _ v => dataOf 16 v
  | .uncorrectable _ => Config.rewrittenWord w

/-- Entry k of a side's defect list as it is rewritten without being read (R169, R213). -/
def State.keptEntry (s : State) (x : Side) (k : Nat) : DefectEntry :=
  let word := fun a => keptWord (Mem.read tableDefault s.tableStore.mem a)
  let at0 := poolAddr x s.tableStore.leftShare k
  entryOfWords (word at0) (word (at0 + 1))

/-- Entry i leaves a side's list and the entries after it move down one place: the resulting list is written to the share from its first
entry with correct check bits, so that stored errors in it are replaced (R169, R170). DEDUCED: only the words of entry i are read
(R157; log entry 9). -/
def State.dropEntry (s : State) (x : Side) (i : Nat) : State :=
  s.writeList x (((List.range (s.side x).tables.defectCount).eraseIdx i).map (s.keptEntry x))

/-- DEFECT_ENTRY of an index of a side (R170). DESIGN CHOICE: the REFUSED reply carries the entry index in one word (log entry 39; R214 gives
the layout of a DONE reply only). -/
def State.readDefectEntry (s : State) (x : Side) (i : Nat) : Response × State :=
  let n := (s.side x).tables.defectCount
  if 4095 < i then (.refused .badArgument [], s)
  else if n ≤ i then (.done [0, 0, 0, 0, wordOf n], s)
  else
    let r := s.readEntry x i
    match r.1 with
    | some e => (.done [1, wordOf e.row, wordOf e.col, wordOf e.cls.toNat, wordOf n], r.2)
    | none => (.refused .tableError [wordOf i], (r.2.loseEntry x).dropEntry x i)

/-- READ_ITEM DEFECT_ENTRY (R170). -/
def execDefectEntry (l : Side) (p : Packet) (s : State) : Host.Outcome State Fault Refusal :=
  s.take (fun s => s.readSide l p 8 (fun x s => s.readDefectEntry x p.s1.toNat))

/-- READ_ITEM PART_STATE (R201). -/
def execPartState (l : Side) (p : Packet) (s : State) : Host.Outcome State Fault Refusal :=
  s.take (fun s => s.readItem l p 9 (fun s => (.done s.partStateWords, s)))

end Sys2Proof.Machine
end

