-- ==== Sys2Proof/Machine/ResetMeanings.lean ====
section
/-! DEFINITION. The meanings of the external reset: POWER_ON_RESET, the end of power-on reset, and RESET_INPUT_ASSERTED (R209). -/

namespace Sys2Proof.Machine

/-- The end of power-on reset: every block holds its power-on values (R209). The DRAM contents are not initialised (R116); the queue of
waiting commands and the count of uses of the free order are the model's and are kept (DESIGN CHOICE, log entry 31). -/
def State.powerOn (s : State) : State :=
  { State.reset with
    pending := s.pending, ties := s.ties, opened := s.opened,
    frameStore := { State.reset.frameStore with mem := s.frameStore.mem } }

/-- POWER_ON_RESET (R209). It is taken whether the reset input stands asserted or not. -/
def execPowerOnReset (s : State) : Host.Outcome State Fault Refusal := .next s.powerOn

/-- An open transaction on a sensor bus is abandoned, unanswered (R209). -/
def Bus.cutOff (b : Bus) : Bus := { b with state := .idle, attempts := 0, transaction := none, finishing := false }

/-- The reset input is asserted: work in progress at the part's boundary is abandoned, and no event is taken from then on (R209). DESIGN CHOICE:
the blocks keep their state until the end of the reset (log entry 13). -/
def State.resetAsserted (s : State) : State :=
  let s := s.onSide .left (fun d => { d with bus := d.bus.cutOff })
  let s := s.onSide .right (fun d => { d with bus := d.bus.cutOff })
  let s := s.onLink .left (fun k => { k with forward := none })
  let s := s.onLink .right (fun k => { k with forward := none })
  { s with inReset := true }

/-- RESET_INPUT_ASSERTED (R209). -/
def execResetInputAsserted (s : State) : Host.Outcome State Fault Refusal := .next s.resetAsserted

end Sys2Proof.Machine
end

