-- ==== Sys2Proof/Machine/SensorBus.lean ====
section
/-! DEFINITION. The meanings of the events of a sensor bus: SENSOR_BUS_RESPONSE and RESPONSE_TIMER_EXPIRY (R19). -/

namespace Sys2Proof.Machine

/-- The response timer of an open attempt has run 20 ticks (R18, R19). -/
def State.responseDue (s : State) (x : Side) : Bool :=
  decide ((s.side x).bus.state = .sending) && decide (20 ≤ ticksSince s.tick (s.side x).bus.timerStart)

/-- The response answers the open transaction of the side's bus: the bus is SENDING, and the transaction it carries is the one open. -/
def Bus.awaits (b : Bus) (transaction : Nat) : Bool :=
  decide (b.state = .sending) && decide (b.transaction.map Transaction.number = some transaction)

/-- A response to a transaction of the side's sensor bus. In IDLE, and after the expiry of its own transaction's timer, it belongs to no
open transaction and is discarded (R19). -/
def State.busResponse (s : State) (x : Side) (transaction : Nat) (ack : Bool) : State :=
  if (s.side x).bus.awaits transaction then (if ack then s.attemptAcked x else s.attemptFailed x) else s

/-- SENSOR_BUS_RESPONSE (R19). -/
def execSensorBusResponse (x : Side) (r : BusResponse) (s : State) : Host.Outcome State Fault Refusal :=
  s.take (fun s => s.busResponse x r.transaction r.ack)

/-- RESPONSE_TIMER_EXPIRY (R19): without effect when the timer of an open attempt has not run out, as after a response taken first
(log entry 7). -/
def execResponseTimerExpiry (x : Side) (s : State) : Host.Outcome State Fault Refusal :=
  s.take (fun s => if s.responseDue x then s.attemptFailed x else s)

end Sys2Proof.Machine
end

