-- ==== Sys2Proof/Machine/PortOps.lean ====
section
/-! DEFINITION. The sensor port and the work of a sensor frame in every block of its side: frame start, malformed frame, discard and
good frame end (R2 to R13, R52 to R61, R76, R83, R86, R90). -/

namespace Sys2Proof.Machine

/-! ## Embedded status and temperature (R6, R12, R13, R212) -/

/-- The embedded status of a frame (R1, R212). -/
structure Embedded where
  number : FrameNo
  integ : Nat
  code : Nat
  temp : Int
  deriving DecidableEq, Repr

/-- The embedded status in the first words of status line 0 (R212). -/
def readEmbedded (line : List Sample) : Embedded :=
  { number := ((line.getD 1 0).extractLsb' 0 4) ++ (line.getD 0 0),
    integ := (line.getD 2 0).toNat,
    code := ((line.getD 3 0).extractLsb' 0 5).toNat,
    temp := (line.getD 4 0).toInt }

/-- The temperature class after a frame start with temperature t (R12). -/
def nextClass (c : TempClass) (t : Int) : TempClass :=
  if 85 ≤ t then .hot
  else
    match c with
    | .hot => if 82 ≤ t then .hot else if 57 ≤ t then .warm else .normal
    | .warm => if 57 ≤ t then .warm else .normal
    | .normal => if 60 ≤ t then .warm else .normal

/-- The SENSOR_HOT check (R13). -/
def State.checkHot (s : State) (x : Side) (t : Int) : State :=
  let hot := (s.side x).port.hotCond
  if 105 ≤ t ∧ hot = false then
    (s.onSide x (fun d => { d with port := { d.port with hotCond := true } })).raise (.side .sensorHot x) (wordOfInt t)
  else if t < 102 ∧ hot = true then
    (s.onSide x (fun d => { d with port := { d.port with hotCond := false } })).endFault (.side .sensorHot x)
  else s

/-! ## Discard and malformed frame (R5, R61, R112) -/

/-- A frame in LINES is announced discarded: the developer abandons it and its slot is freed (R5, R61, R112). -/
def SideState.discardFrame (d : SideState) : SideState :=
  let d := d.discardSlot
  { d with dev := d.dev.idle }

/-- The port finds the open frame malformed at a line index; `started` when the frame had taken its frame start (R5). SENSOR_FRAME is set
when this leaves the consecutive malformed count at 3 or more, and set again when frame_cond is already set (R10). -/
def State.malformed (s : State) (x : Side) (index : Nat) (started : Bool) : State :=
  let s := s.onSide x (fun d =>
    let d := { d with port := { d.port with
      phase := .closed, statusLines := [], badCount := satSucc d.port.badCount 255, goodCount := 0,
      malformIndex := some index } }
    if started then d.discardFrame else d)
  if 3 ≤ (s.side x).port.badCount ∨ (s.side x).port.frameCond = true then
    (s.onSide x (fun d => { d with port := { d.port with frameCond := true } })).raise (.side .sensorFrame x) (wordOf index)
  else s

/-! ## Frame start (R6) -/

/-- The port's own part of a frame start, with the opening of the frame record (R6, R8, R12). -/
def SideState.openFrame (d : SideState) (e : Embedded) (now : Tick) : SideState :=
  let t := clamp e.temp (-40) 150
  let cls := nextClass d.port.tempClass t
  let gap := match d.port.fcur with
    | some f => !decide (e.number = f + 1)
    | none => false
  let r : FrameRecord :=
    { serial := d.nextSerial, number := e.number, gap := gap, arrival := now, temp := t, cls := cls,
      exposure := { total := 0, integ := 0, analog := 0, digital := 0 }, matched := false, bank := 0, slot := none,
      metered := none, glare := none, outcome := .pending }
  { d with
    port := { d.port with
      state := .running, phase := .lines, lineCount := 0, statusLines := [], fcur := some e.number, lastStart := now,
      lastTemp := some t, tempClass := cls },
    history := r :: d.history.take 7,
    nextSerial := d.nextSerial + 1 }

/-- The table store's part of a frame start: the pending commit, the defect list with its edits, the working copies and the check of
TABLE_POISONED (R53, R57, R157, R161, R164, R169). The list answered is the defect list of the frame. -/
def State.takeTables (s : State) (x : Side) : List DefectEntry × State :=
  let s := s.swapPending x
  let r := s.applyPendingEdits x
  let c := State.copyTables x TableId.all (romTables x) r.2
  let s := c.2.onSide x (fun d => { d with dev := { d.dev with copies := some c.1 } })
  (r.1, s.checkPoisonAtStart x)

/-- The exposure unit's part of a frame start: bank switch, retirement, match or seed, and EXPOSURE_MISMATCH (R29 to R33, R45). -/
def State.matchExposure (s : State) (x : Side) (e : Embedded) : State :=
  let u := ((s.side x).exposure.switchBank).retire e.number
  let m := u.matchFrame (limitsOf (s.profileOf x u.bank) (s.sensorOf x)) e.integ e.code
  let s := s.onSide x (fun d =>
    { (d.onNewest (fun r =>
        { r with exposure := m.2.inForce.getD r.exposure, matched := decide (m.1 ≠ .mismatched), bank := m.2.bank }))
      with exposure := m.2 })
  s.reportMatch x e.number m.1

/-- The framing and glare units' part of a frame start (R86, R100 to R103). -/
def State.stepWindows (s : State) (x : Side) : State :=
  let c := s.copies x
  s.onSide x (fun d =>
    { d with
      framing := d.framing.frameStart x s.artic (readLayout c.layout) c.pan,
      glare := { d.glare with handed := some (handedSet c.glareAtt d.glare.zones) } })

/-- The slot and the developer's part of a frame start (R54, R55, R58, R65, R77, R110). -/
def SideState.beginDevelopment (d : SideState) (e : Embedded) (list : List DefectEntry) (now : Tick) (serial : Nat) : SideState :=
  let g := d.comp.mode.geometry
  let q := d.fillSlot g e.number now serial
  let d := q.2
  let w := d.framing.windows.getD
    { main := { x := 0, y := 0, w := 0, h := 0 }, wide := { x := 0, y := 0, w := 0, h := 0 }, markX := .unclamped, markY := .unclamped }
  let d := d.onNewest (fun r => { r with slot := q.1 })
  { d with dev := { d.dev with
      frame := some e.number, geometry := some g, zones := zeroZones, recent := [],
      inputs := some
        { exposure := d.exposure.inForce.getD { total := 0, integ := 0, analog := 0, digital := 0 },
          bank := d.exposure.bank, tempClass := d.port.tempClass, defects := activeDefects d.port.tempClass list,
          attenuations := d.glare.handed.getD [], main := w.main, wide := w.wide, slot := q.1 } } }

/-- The frame start of a frame with the given embedded status (R6), and what every block of the side does with its announcement.
DESIGN CHOICE: the order of the blocks where the rules state none (log entry 18). -/
def State.frameStart (s : State) (x : Side) (e : Embedded) : State :=
  let serial := (s.side x).nextSerial
  let s := s.onSide x (fun d => d.openFrame e s.tick)
  let s := s.checkHot x (clamp e.temp (-40) 150)
  let r := s.takeTables x
  let s := (r.2.stepWindows x).matchExposure x e
  s.onSide x (fun d => d.beginDevelopment e r.1 s.tick serial)

/-! ## Good frame end (R7) -/

/-- SENSOR_LOSS and SENSOR_FRAME at a good frame end (R7, R10, R11). -/
def State.endSensorFaults (s : State) (x : Side) : State :=
  let s :=
    if (s.side x).port.lossCond then
      (s.onSide x (fun d => { d with port := { d.port with lossCond := false } })).endFault (.side .sensorLoss x)
    else s
  if (s.side x).port.goodCount = 3 ∧ (s.side x).port.frameCond then
    (s.onSide x (fun d => { d with port := { d.port with frameCond := false } })).endFault (.side .sensorFrame x)
  else s

/-- The glare unit at the good frame end of a frame (R80 to R83, R90). -/
def SideState.updateGlare (d : SideState) (p : Profile) (f : FrameNo) (zones : List ZoneAcc) : SideState :=
  let lit := litCountOf p zones
  let susp := suspendedOf p zones
  let d := d.onNewest (fun r => { r with glare := some (lit, susp) })
  { d with glare := { d.glare with
      zones := updateZones p.attack p.release p.hold d.glare.zones (zones.map (takenAsLit p susp)),
      lastUpdate := some { frame := f, litCount := lit, suspended := susp } } }

/-- The good frame end (R7), and what every block of the side does with it: slot, glare unit, exposure unit, developer
(R60, R111). -/
def State.goodFrameEnd (s : State) (x : Side) : State :=
  let s := s.onSide x (fun d =>
    { d with port := { d.port with
        phase := .closed, goodCount := satSucc d.port.goodCount 255, badCount := 0 } })
  let s := s.endSensorFaults x
  let s := s.onSide x SideState.readySlot
  let dev := (s.side x).dev
  match dev.frame, dev.inputs with
  | some f, some inp =>
    let s := s.onSide x (fun d => { (d.updateGlare (s.profileOf x inp.bank) f dev.zones) with dev := dev.idle })
    s.meterFrame x inp dev.zones
  | _, _ => s

/-! ## Loss (R9) and side restart (R14, R78) -/

/-- The loss timer has reached the loss timeout in RUNNING (R9). -/
def State.lossDue (s : State) (x : Side) : Bool :=
  decide ((s.side x).port.state = .running) &&
    decide ((s.sensorOf x).lossTimeout ≤ ticksSince s.tick (s.side x).port.lastStart)

/-- The loss expiry (R9, R11, R161). -/
def State.lossExpiry (s : State) (x : Side) : State :=
  let f := (s.side x).port.fcur.getD 0
  let s := s.onSide x (fun d =>
    let d := if d.port.phase = .lines then
        { d.discardFrame with port := { d.port with phase := .closed } }
      else d
    { d with port := { d.port with state := .lost, lossCond := true } })
  (s.raise (.side .sensorLoss x) f).swapPending x

/-- The port and frame history at a side restart (R14). -/
def SideState.restartPort (d : SideState) : SideState :=
  let d := if d.port.phase = .lines then d.discardFrame else d
  { d with
    port := { d.port with
      state := .searching, phase := .closed, lineCount := 0, statusLines := [], badCount := 0, goodCount := 0, fcur := none,
      frameCond := false, lossCond := false, hotCond := false },
    history := [] }

end Sys2Proof.Machine
end

