-- ==== Sys2Proof/Machine/SensorPort.lean ====
section
/-! DEFINITION. The meanings of the events of a sensor port: FRAME_BEGIN_MARKER, LINE, FRAME_END_MARKER and LOSS_EXPIRY (R2 to R4,
R9). -/

namespace Sys2Proof.Machine

/-- A frame is opened: STATUS with line count 0 (R2). -/
def SideState.openStatus (d : SideState) : SideState :=
  { d with port := { d.port with phase := .status, lineCount := 0, statusLines := [] } }

/-- A frame-begin marker at the port of a side (R2). -/
def State.frameBegin (s : State) (x : Side) : State :=
  let p := (s.side x).port
  let s := match p.phase with
    | .closed => s
    | .status => s.malformed x p.lineCount false
    | .lines => s.malformed x (p.lineCount + 2) true
  s.onSide x SideState.openStatus

/-- FRAME_BEGIN_MARKER (R2, R5). -/
def execFrameBeginMarker (x : Side) (s : State) : Host.Outcome State Fault Refusal :=
  s.take (fun s => s.frameBegin x)

/-- A line in STATUS (R3, R6). -/
def State.statusLine (s : State) (x : Side) (ws : List Sample) : State :=
  let p := (s.side x).port
  if ws.length ≠ 1920 then s.malformed x p.lineCount false
  else
    let kept := p.statusLines ++ [ws]
    let s := s.onSide x (fun d =>
      { d with port := { d.port with lineCount := p.lineCount + 1, statusLines := kept } })
    if p.lineCount + 1 = 2 then s.frameStart x (readEmbedded (kept.getD 0 [])) else s

/-- A line in LINES (R3, R59). -/
def State.activeLine (s : State) (x : Side) (ws : List Sample) : State :=
  let n := (s.side x).port.lineCount
  if ws.length ≠ 1920 ∨ 2560 ≤ n then s.malformed x (n + 2) true
  else
    (s.onSide x (fun d => { d with port := { d.port with lineCount := n + 1 } })).developLine x n ws

/-- A line at the port of a side (R3). -/
def State.receiveLine (s : State) (x : Side) (ws : List Sample) : State :=
  match (s.side x).port.phase with
  | .closed => s
  | .status => s.statusLine x ws
  | .lines => s.activeLine x ws

/-- LINE (R3). -/
def execLine (x : Side) (ws : List Sample) (s : State) : Host.Outcome State Fault Refusal :=
  s.take (fun s => s.receiveLine x ws)

/-- A frame-end marker at the port of a side (R4). -/
def State.frameEnd (s : State) (x : Side) : State :=
  let p := (s.side x).port
  match p.phase with
  | .closed => s
  | .status => s.malformed x p.lineCount false
  | .lines => if p.lineCount = 2560 then s.goodFrameEnd x else s.malformed x (p.lineCount + 2) true

/-- FRAME_END_MARKER (R4, R7). -/
def execFrameEndMarker (x : Side) (s : State) : Host.Outcome State Fault Refusal :=
  s.take (fun s => s.frameEnd x)

/-- LOSS_EXPIRY (R9): without effect when the loss timer has not run out, as after a frame start taken first (log entry 7). -/
def execLossExpiry (x : Side) (s : State) : Host.Outcome State Fault Refusal :=
  s.take (fun s => if s.lossDue x then s.lossExpiry x else s)

end Sys2Proof.Machine
end

