-- ==== Sys2Proof/Machine/SideDirectives.lean ====
section
/-! DEFINITION. The meanings of the directives for the settings of a side: SET_PROFILE_MODE, ARTICULATION, AIM, TRIM, OUTPUT_MODE,
SENSOR_WRITE and RESTART_SIDE (R99, R105, R202, R203, R205, R208). -/

namespace Sys2Proof.Machine

/-- A directive for LEFT, RIGHT or BOTH: `body` takes the sides named, LEFT first (R198). -/
def State.sidesDirective (s : State) (l : Side) (p : Packet) (body : List Side → State → Response × State) : State :=
  s.plainDirective l p (fun s =>
    match sidesField p.side with
    | some xs => body xs s
    | none => (.refused .badArgument [], s))

/-- The reply data of the sides named follow one another. For BOTH all of LEFT's words stand before RIGHT's (DEDUCED, log entry 17: R214
names each side named without an order). -/
def State.doneFor (s : State) (xs : List Side) (data : SideState → List Word) : Response × State :=
  (.done (xs.map (fun x => data (s.side x))).flatten, s)

/-! ## SET_PROFILE_MODE (R46, R47, R202) -/

/-- The profile mode and the scheduled bank (R202). -/
def profileModeWords (d : SideState) : List Word :=
  [Config.profileModeCode d.exposure.mode, wordOfBool d.exposure.scheduled.isSome,
    wordOf ((d.exposure.scheduled.map Fin.val).getD 0)]

/-- FORCE of a bank for the sides named (R46, R202). -/
def State.forceSides (b : Bank) (xs : List Side) (s : State) : Response × State :=
  (s.forSides xs (fun s x => s.onSide x (fun d => { d with exposure := d.exposure.force b }))).doneFor xs profileModeWords

/-- AUTO for the sides named (R47, R202). -/
def State.autoSides (xs : List Side) (s : State) : Response × State :=
  (s.forSides xs (fun s x => s.onSide x (fun d => { d with exposure := d.exposure.auto }))).doneFor xs profileModeWords

/-- SET_PROFILE_MODE FORCE (R46, R202). -/
def execSetProfileModeForce (l : Side) (p : Packet) (s : State) : Host.Outcome State Fault Refusal :=
  s.take (fun s => s.sidesDirective l p (fun xs s =>
    if p.s0 = 1 then
      if h : p.s1.toNat < 4 then State.forceSides ⟨p.s1.toNat, h⟩ xs s else (.refused .badArgument [], s)
    else (.refused .badArgument [], s)))

/-- SET_PROFILE_MODE AUTO (R47, R202). -/
def execSetProfileModeAuto (l : Side) (p : Packet) (s : State) : Host.Outcome State Fault Refusal :=
  s.take (fun s => s.sidesDirective l p (fun xs s =>
    if p.s0 = 0 then State.autoSides xs s else (.refused .badArgument [], s)))

/-! ## ARTICULATION, AIM, TRIM, OUTPUT_MODE -/

/-- ARTICULATION with an angle (R99). -/
def State.articulate (angle : Int) (s : State) : Response × State :=
  (.done [wordOfInt (clamp angle (-900) 900)], s.setAngle angle)

/-- ARTICULATION (R99). -/
def execArticulation (l : Side) (p : Packet) (s : State) : Host.Outcome State Fault Refusal :=
  s.take (fun s => s.plainDirective l p (State.articulate p.s0.toInt))

/-- AIM for the sides named (R105). -/
def State.aimSides (dx dy : Int) (xs : List Side) (s : State) : Response × State :=
  (s.forSides xs (fun s x => s.onSide x (fun d => { d with framing := d.framing.aim (s.layoutOf x) dx dy }))).doneFor xs
    (fun d => [wordOfInt d.framing.aimDx, wordOfInt d.framing.aimDy])

/-- AIM (R105). -/
def execAim (l : Side) (p : Packet) (s : State) : Host.Outcome State Fault Refusal :=
  s.take (fun s => s.sidesDirective l p (State.aimSides p.s0.toInt p.s1.toInt))

/-- TRIM for the sides named (R48, R203). -/
def State.trimSides (v : Int) (xs : List Side) (s : State) : Response × State :=
  let t := clamp v (-256) 256
  (.done [wordOfInt t], s.forSides xs (fun s x => s.onSide x (fun d => { d with exposure := { d.exposure with trim := t } })))

/-- TRIM (R48, R203). -/
def execTrim (l : Side) (p : Packet) (s : State) : Host.Outcome State Fault Refusal :=
  s.take (fun s => s.sidesDirective l p (State.trimSides p.s0.toInt))

/-- OUTPUT_MODE for the sides named (R134, R203). -/
def State.modeSides (m : OutputMode) (xs : List Side) (s : State) : Response × State :=
  (s.forSides xs (fun s x => s.onComp x (fun c => { c with requested := m }))).doneFor xs
    (fun d => [wordOf d.comp.requested.code, wordOf d.comp.mode.code])

/-- OUTPUT_MODE (R134, R203). -/
def execOutputMode (l : Side) (p : Packet) (s : State) : Host.Outcome State Fault Refusal :=
  s.take (fun s => s.sidesDirective l p (fun xs s =>
    match modeField p.s0 with
    | some m => State.modeSides m xs s
    | none => (.refused .badArgument [], s)))

/-! ## SENSOR_WRITE (R17, R205) -/

/-- One SERVICE write is queued on a side's bus, and an attempt starts if the bus is IDLE (R17, R18). -/
def State.serviceWrite (reg val : Word) (s : State) (x : Side) : State :=
  (s.onSide x (fun d => { d with bus := d.bus.queueService reg val })).startAttempt x

/-- SENSOR_WRITE for the sides named: the reply carries the group number that each entry takes (R17, R205). -/
def State.writeSides (reg val : Word) (xs : List Side) (s : State) : Response × State :=
  if xs.all (fun x => decide ((s.side x).bus.buffer.length < 16)) then
    (.done (xs.map (fun x => (s.side x).bus.groupCounter.setWidth 16)), s.forSides xs (State.serviceWrite reg val))
  else (.refused .noSpace [], s)

/-- SENSOR_WRITE (R17, R205). -/
def execSensorWrite (l : Side) (p : Packet) (s : State) : Host.Outcome State Fault Refusal :=
  s.take (fun s => s.sidesDirective l p (State.writeSides p.s0 p.s1))

/-! ## RESTART_SIDE (R208) -/

/-- What a side restart makes of the blocks of the side, before the fault table, the pending edits and the link port (R14, R22, R51,
R78, R94, R108, R116, R123, R151, R174). -/
def SideState.restarted (d : SideState) : SideState :=
  let d := d.restartPort
  { d with
    bus := d.bus.restarted, exposure := d.exposure.restarted, dev := d.dev.idle, glare := Glare.reset,
    framing := d.framing.restarted, store := d.store.restarted, comp := d.comp.restarted,
    tables := { d.tables with poisonCond := false } }

/-- The fault table clears the 11 records of a side, in index order, without a report from a block (R190). -/
def State.clearRecords (s : State) (x : Side) : State := (RecordId.ofSide x).foldl State.endFault s

/-- The pending defect edits of a side, if there are any, are applied at its restart (R78, R169, R174). -/
def State.editsAtRestart (s : State) (x : Side) : State :=
  if (s.side x).dev.edits = [] then s else (s.applyPendingEdits x).2

/-- The link port's condition at a restart of its side (R193): the detail is that of its latest setting, which the record holds. -/
def State.linkAtRestart (s : State) (x : Side) : State :=
  let detail := (s.faults.get (.side .displayLinkDown x)).detail
  let s := s.onLink x (fun k => { k with linkCond := false })
  if s.isUp x then s else s.setLinkDown x detail

/-- The restart of a side (R208). DESIGN CHOICE: the order where the rules state none (log entry 19). -/
def State.restartSide (s : State) (x : Side) : State :=
  ((((s.swapPending x).onSide x SideState.restarted).clearRecords x).editsAtRestart x).linkAtRestart x

/-- RESTART_SIDE (R208). -/
def execRestartSide (l : Side) (p : Packet) (s : State) : Host.Outcome State Fault Refusal :=
  s.take (fun s => s.sidesDirective l p (fun xs s => (.done [], s.forSides xs State.restartSide)))

end Sys2Proof.Machine
end

