-- ==== Sys2Proof/Machine/TableDirectives.lean ====
section
/-! DEFINITION. The meanings of the directives of the table store: LOAD_TABLE, COMMIT, DEFECT_ADD, DEFECT_REMOVE, DEFECT_SPLIT and
LOCK (R158 to R169, R206). -/

namespace Sys2Proof.Machine

/-! ## Locks (R165, R206) -/

/-- The lock class that a kind of table belongs to (R165). -/
def TableKind.lockClass : TableKind → Option LockClass
  | .layout => some .layout
  | .sensor => some .sensor
  | .pan => some .pan
  | .tone | .profile | .ladder | .glareAtt => none

/-- The flag of a lock class. -/
def Locks.get (k : Locks) : LockClass → Bool
  | .layout => k.layout
  | .sensor => k.sensor
  | .pan => k.pan
  | .defects => k.defects

/-- The flag of a lock class is set. -/
def Locks.lock (k : Locks) : LockClass → Locks
  | .layout => { k with layout := true }
  | .sensor => { k with sensor := true }
  | .pan => { k with pan := true }
  | .defects => { k with defects := true }

/-- A table belongs to a lock class that is set (R158, R159, R165). -/
def Locks.covers (k : Locks) (t : TableId) : Bool :=
  match t.kind.lockClass with
  | some c => k.get c
  | none => false

/-- A commit naming the table is pending for the side (R158, R161). -/
def SideTables.commitNames (d : SideTables) (t : TableId) : Bool :=
  match d.commit with
  | some c => c.tables.getLsbD t.num
  | none => false

/-- A lock of the class stands against a pending commit or pending edits of a side (R165). -/
def SideState.lockPending (d : SideState) : LockClass → Bool
  | .layout => d.tables.commitNames .layout
  | .sensor => d.tables.commitNames .sensor
  | .pan => d.tables.commitNames .pan
  | .defects => !d.dev.edits.isEmpty

/-- LOCK of a class (R165, R206). -/
def State.lockDirective (c : LockClass) (s : State) : Response × State :=
  if s.sides.left.lockPending c ∨ s.sides.right.lockPending c then (.refused .pending [], s)
  else
    let s := { s with locks := s.locks.lock c }
    (.done (lockWords s.locks), s)

/-- LOCK (R165, R206). -/
def execLock (l : Side) (p : Packet) (s : State) : Host.Outcome State Fault Refusal :=
  s.take (fun s => s.plainDirective l p (fun s =>
    match lockField p.s0 with
    | some c => State.lockDirective c s
    | none => (.refused .badArgument [], s)))

/-! ## LOAD_TABLE (R158) -/

/-- The control record of a table after words `offset .. offset + count - 1` of its shadow are loaded (R154, R158). -/
def TableCtl.loaded (c : TableCtl) (offset count : Nat) : TableCtl :=
  let c' := { c with shadow := .loaded }
  match c.bad c.active.other with
  | some j => if offset ≤ j ∧ j < offset + count then c'.setBad c.active.other none else c'
  | none => c'

/-- An accepted LOAD_TABLE: the words go into the shadow (R158). -/
def State.loadShadow (s : State) (x : Side) (t : TableId) (offset : Nat) (ws : List Word) : State :=
  let c := (s.side x).tables.ctl.get t
  (s.writeTableWords (tableAddr x t c.active.other offset) ws).onSide x (fun d =>
    { d with tables := { d.tables with ctl := d.tables.ctl.set t (c.loaded offset ws.length) } })

/-- LOAD_TABLE of a named table (R158). DEDUCED: the words of the reply (log entry 16). -/
def State.loadDirective (x : Side) (t : TableId) (offset count : Nat) (ws : List Word) (s : State) : Response × State :=
  if count = 0 ∨ 32 < count ∨ ws.length ≠ count ∨ t.words < offset + count then (.refused .badArgument [], s)
  else if s.locks.covers t then (.refused .locked [], s)
  else if (s.side x).tables.commitNames t then (.refused .pending [], s)
  else (.done (ws ++ [Config.shadowStateCode .loaded]), s.loadShadow x t offset ws)

/-- LOAD_TABLE (R158). -/
def execLoadTable (l : Side) (p : Packet) (s : State) : Host.Outcome State Fault Refusal :=
  s.take (fun s => s.directive l p (fun s =>
    match sideField p.side, tableField (field p.s0 0 4) (field p.s0 8 2) with
    | some x, some t => State.loadDirective x t (field p.s1 0 8) (field p.s1 8 8) p.args s
    | _, _ => (.refused .badArgument [], s)))

/-! ## COMMIT (R159 to R162) -/

/-- The lowest named table whose shadow is STALE (R159). -/
def SideTables.firstStale (d : SideTables) (set : BitVec 13) : Option TableId :=
  (namedTables set).find? (fun t => decide ((d.ctl.get t).shadow = .stale))

/-- The lowest named table whose shadow is poisoned, with its bad index (R159). -/
def SideTables.firstShadowBad (d : SideTables) (set : BitVec 13) : Option (TableId × Nat) :=
  (namedTables set).findSome? (fun t => ((d.ctl.get t).bad (d.ctl.get t).active.other).map (fun j => (t, j)))

/-- A COMMIT that passes its checks is accepted (R161): swapped at once while the port is not RUNNING, else pending with the
reservation of the link that carried it. -/
def State.acceptCommit (l x : Side) (set : BitVec 13) (s : State) : Response × State :=
  if (s.side x).port.state = .running then
    (.held x, s.onSide x (fun d => { d with tables := { d.tables with commit := some { tables := set, link := some l } } }))
  else (.done [setWord set], s.swapSet x { tables := set, link := none })

/-- COMMIT of a set of tables of a side (R159). DESIGN CHOICE: a REFUSED reply carries the table id, or the table id and then the word index,
in one word each (log entry 39; R214 gives the layout of a DONE reply only). -/
def State.commitDirective (l x : Side) (set : BitVec 13) (s : State) : Response × State :=
  let d := (s.side x).tables
  if (namedTables set).any (fun t => s.locks.covers t) then (.refused .locked [], s)
  else if d.commit.isSome then (.refused .pending [], s)
  else
    match d.firstStale set with
    | some t => (.refused .wrongState [wordOf t.num], s)
    | none =>
      match d.firstShadowBad set with
      | some b => (.refused .tableError [wordOf b.1.num, wordOf b.2], s)
      | none =>
        let r := State.validate x (namedTables set) s
        match r.1 with
        | .tableError t j => (.refused .tableError [wordOf t.num, wordOf j], r.2)
        | .badContent t j => (.refused .badContent [wordOf t.num, wordOf j], r.2)
        | .pass => State.acceptCommit l x set r.2

/-- COMMIT (R159, R211). -/
def execCommit (l : Side) (p : Packet) (s : State) : Host.Outcome State Fault Refusal :=
  s.take (fun s => s.plainDirective l p (fun s =>
    match sideField p.side with
    | some x =>
      if p.s0 = 0 ∨ 8192 ≤ p.s0.toNat then (.refused .badArgument [], s)
      else State.commitDirective l x (p.s0.setWidth 13) s
    | none => (.refused .badArgument [], s)))

/-! ## Defect edits (R56, R167, R168) -/

/-- What an edit directive does with its sites. -/
inductive EditKind where
  | add
  | remove
  deriving DecidableEq, Repr

/-- The edit of a site (R56). -/
def EditKind.edit (k : EditKind) (e : DefectEntry) : DefectEdit :=
  match k with
  | .add => .add e.row e.col e.cls
  | .remove => .remove e.row e.col

/-- The judgement of a site against the projected list, of a side with that share and `held` pending edits (R167, R168). -/
def EditKind.accepts (k : EditKind) (share held : Nat) (projected : List DefectEntry) (e : DefectEntry) : Bool :=
  if 2559 < e.row ∨ 1919 < e.col ∨ 64 ≤ held then false
  else
    match k with
    | .add => listed e.row e.col projected || decide (projected.length < share)
    | .remove => listed e.row e.col projected

/-- Sites judged in directive order (R167, R168): the edits accepted, and the index of the first site refused, from index `i`. -/
def EditKind.judge (k : EditKind) (share : Nat) :
    Nat → Nat → List DefectEntry → List DefectEntry → List DefectEdit × Option Nat
  | _, _, _, [] => ([], none)
  | i, held, projected, e :: es =>
    if k.accepts share held projected e then
      let r := k.judge share (i + 1) (held + 1) (applyEdit projected (k.edit e)) es
      (k.edit e :: r.1, r.2)
    else
      let r := k.judge share (i + 1) held projected es
      (r.1, some i)

/-- An accepted edit directive for one side (R167 to R169): the reply words of the side. -/
def State.editSide (k : EditKind) (sites : List DefectEntry) (x : Side) (s : State) : List Word × State :=
  let r := (s.clearDefectLoss x).readList x []
  let held := (r.2.side x).dev.edits
  let j := k.judge (r.2.shareOf x) 0 held.length (applyEdits r.1 held) sites
  ([wordOf j.1.length, wordOfBool j.2.isSome, wordOf (j.2.getD 0)],
    r.2.onSide x (fun d => { d with dev := { d.dev with edits := d.dev.edits ++ j.1 } }))

/-- An accepted edit directive for each side named, LEFT first. -/
def State.editSides (k : EditKind) (sites : List DefectEntry) : List Side → State → List Word × State
  | [], s => ([], s)
  | x :: xs, s =>
    let r := State.editSide k sites x s
    let rest := State.editSides k sites xs r.2
    (r.1 ++ rest.1, rest.2)

/-- An edit directive with its form checks (R167, R168). For DEFECT_REMOVE the class bits are not read. -/
def State.editDirective (k : EditKind) (p : Packet) (s : State) : Response × State :=
  let sites := sitesOf p.args
  match sidesField p.side with
  | some xs =>
    if p.s0 = 0 ∨ 16 < p.s0.toNat ∨ p.args.length ≠ 2 * p.s0.toNat ∨ (k = .add ∧ sites.any (fun e => decide (e.cls = 3)) = true) then
      (.refused .badArgument [], s)
    else if s.locks.defects then (.refused .locked [], s)
    else
      let r := State.editSides k sites xs s
      (.done r.1, r.2)
  | none => (.refused .badArgument [], s)

/-- DEFECT_ADD (R167). -/
def execDefectAdd (l : Side) (p : Packet) (s : State) : Host.Outcome State Fault Refusal :=
  s.take (fun s => s.directive l p (State.editDirective .add p))

/-- DEFECT_REMOVE (R168). -/
def execDefectRemove (l : Side) (p : Packet) (s : State) : Host.Outcome State Fault Refusal :=
  s.take (fun s => s.directive l p (State.editDirective .remove p))

/-- A side has no defect entry and no pending edit. -/
def SideState.noDefects (d : SideState) : Bool := decide (d.tables.defectCount = 0) && d.dev.edits.isEmpty

/-- DEFECT_SPLIT with a LEFT share (R166). -/
def State.splitDirective (share : Nat) (s : State) : Response × State :=
  if share % 256 ≠ 0 ∨ 4096 < share then (.refused .badArgument [], s)
  else if s.locks.defects then (.refused .locked [], s)
  else if s.sides.left.noDefects && s.sides.right.noDefects then
    (.done [], { s with tableStore := { s.tableStore with leftShare := share } })
  else (.refused .wrongState [], s)

/-- DEFECT_SPLIT (R166). -/
def execDefectSplit (l : Side) (p : Packet) (s : State) : Host.Outcome State Fault Refusal :=
  s.take (fun s => s.plainDirective l p (State.splitDirective p.s0.toNat))

end Sys2Proof.Machine
end

