-- ==== Sys2Proof/Machine/Dispatch.lean ====
section
/-! DEFINITION. The dispatch of a command to its meaning, one arm for each row of the table. -/

namespace Sys2Proof.Machine

/-- The effect of a command on everything but the queue of waiting commands. -/
def exec (i : Instr) (s : State) : Host.Outcome State Fault Refusal :=
  match i with
  | .frameBeginMarker side => Sys2Proof.Machine.execFrameBeginMarker side s
  | .line side words => Sys2Proof.Machine.execLine side words s
  | .frameEndMarker side => Sys2Proof.Machine.execFrameEndMarker side s
  | .lossExpiry side => Sys2Proof.Machine.execLossExpiry side s
  | .sensorBusResponse side response => Sys2Proof.Machine.execSensorBusResponse side response s
  | .responseTimerExpiry side => Sys2Proof.Machine.execResponseTimerExpiry side s
  | .articulationTimerExpiry => Sys2Proof.Machine.execArticulationTimerExpiry s
  | .outputFrameStart side => Sys2Proof.Machine.execOutputFrameStart side s
  | .linePeriodStart period => Sys2Proof.Machine.execLinePeriodStart period s
  | .trainingRequest link => Sys2Proof.Machine.execTrainingRequest link s
  | .ready link => Sys2Proof.Machine.execReady link s
  | .lossOfLock link => Sys2Proof.Machine.execLossOfLock link s
  | .statusWord link echo panel => Sys2Proof.Machine.execStatusWord link echo panel s
  | .packetDropped _ _ => Sys2Proof.Machine.execPacketDropped s
  | .unknownDirective link _ pkt => Sys2Proof.Machine.execUnknownDirective link pkt s
  | .frameHistory link pkt => Sys2Proof.Machine.execFrameHistory link pkt s
  | .faultRecord link pkt => Sys2Proof.Machine.execFaultRecord link pkt s
  | .errorLog link pkt => Sys2Proof.Machine.execErrorLog link pkt s
  | .exposureState link pkt => Sys2Proof.Machine.execExposureState link pkt s
  | .glareLevels link pkt => Sys2Proof.Machine.execGlareLevels link pkt s
  | .windowState link pkt => Sys2Proof.Machine.execWindowState link pkt s
  | .slotState link pkt => Sys2Proof.Machine.execSlotState link pkt s
  | .tableState link pkt => Sys2Proof.Machine.execTableState link pkt s
  | .defectEntry link pkt => Sys2Proof.Machine.execDefectEntry link pkt s
  | .partState link pkt => Sys2Proof.Machine.execPartState link pkt s
  | .loadTable link pkt => Sys2Proof.Machine.execLoadTable link pkt s
  | .commit link pkt => Sys2Proof.Machine.execCommit link pkt s
  | .setProfileModeForce link pkt => Sys2Proof.Machine.execSetProfileModeForce link pkt s
  | .setProfileModeAuto link pkt => Sys2Proof.Machine.execSetProfileModeAuto link pkt s
  | .articulation link pkt => Sys2Proof.Machine.execArticulation link pkt s
  | .aim link pkt => Sys2Proof.Machine.execAim link pkt s
  | .trim link pkt => Sys2Proof.Machine.execTrim link pkt s
  | .outputMode link pkt => Sys2Proof.Machine.execOutputMode link pkt s
  | .defectAdd link pkt => Sys2Proof.Machine.execDefectAdd link pkt s
  | .defectRemove link pkt => Sys2Proof.Machine.execDefectRemove link pkt s
  | .defectSplit link pkt => Sys2Proof.Machine.execDefectSplit link pkt s
  | .ackFault link pkt => Sys2Proof.Machine.execAckFault link pkt s
  | .noticeMask link pkt => Sys2Proof.Machine.execNoticeMask link pkt s
  | .clearErrorLog link pkt => Sys2Proof.Machine.execClearErrorLog link pkt s
  | .injectErrorFrameStore link pkt => Sys2Proof.Machine.execInjectErrorFrameStore link pkt s
  | .injectErrorTableStore link pkt => Sys2Proof.Machine.execInjectErrorTableStore link pkt s
  | .lock link pkt => Sys2Proof.Machine.execLock link pkt s
  | .sensorWrite link pkt => Sys2Proof.Machine.execSensorWrite link pkt s
  | .restartSide link pkt => Sys2Proof.Machine.execRestartSide link pkt s
  | .powerOnReset => Sys2Proof.Machine.execPowerOnReset s
  | .resetInputAsserted => Sys2Proof.Machine.execResetInputAsserted s

end Sys2Proof.Machine
end

