-- ==== Sys2Proof/Machine/TimeBase.lean ====
section
/-! DEFINITION. The time base on an empty queue (log entry 10): the events that the present tick makes due are queued as commands, or,
when none is due, the tick counter goes on by 1 (R9, R19, R101, R130, R209). -/

namespace Sys2Proof.Machine

/-! ## Output timing (R130) -/

/-- The ticks that the output frame at a place of the cycle lasts (R130). -/
def frameTicks (cycle : Fin 3) : Nat := if cycle = 1 then 1666 else 1667

/-- The line period that starts at the present tick, if one does (R130). -/
def Timing.periodDue (t : Timing) : Option (Fin 1300) :=
  if h : t.nextPeriod < 1300 then
    if t.nextPeriod * frameTicks t.cycle / 1300 ≤ t.elapsed then some ⟨t.nextPeriod, h⟩ else none
  else none

/-- The output timing one tick later (R130). -/
def Timing.advance (t : Timing) : Timing :=
  if t.elapsed + 1 < frameTicks t.cycle then { t with elapsed := t.elapsed + 1 }
  else { cycle := t.cycle + 1, elapsed := 0, nextPeriod := 0 }

/-! ## What is due at a tick -/

/-- The articulation timer has run out (R101). -/
def State.articulationDue (s : State) : Bool :=
  !s.artic.stale && decide (50000 ≤ ticksSince s.tick s.artic.tick)

/-- The expiries due at the present tick (R9, R19, R101). -/
def State.dueExpiries (s : State) : List Instr :=
  (if s.articulationDue then [.articulationTimerExpiry] else []) ++
  (if s.lossDue .left then [.lossExpiry .left] else []) ++
  (if s.lossDue .right then [.lossExpiry .right] else []) ++
  (if s.responseDue .left then [.responseTimerExpiry .left] else []) ++
  (if s.responseDue .right then [.responseTimerExpiry .right] else [])

/-- The events of the output timing due at the present tick, and the line period that follows them (R130, R133): an output frame
start of each side stands before line period 0. -/
def State.dueTiming (s : State) : List Instr × List Instr :=
  match s.timing.periodDue with
  | none => ([], [])
  | some k => if k = 0 then ([.outputFrameStart .left, .outputFrameStart .right], [.linePeriodStart 0]) else ([.linePeriodStart k], [])

/-! ## The free order of events that fall together -/

/-- An event takes its place among events in the order of their keys. -/
def insertByKey (e : Nat × Instr) : List (Nat × Instr) → List (Nat × Instr)
  | [] => [e]
  | f :: fs => if e.1 ≤ f.1 then e :: f :: fs else f :: insertByKey e fs

/-- The events in the order of their keys, the key of event i being the free value at `n + i` (log entry 2). -/
def orderFree (n : Nat) (es : List Instr) : List Instr :=
  ((es.zipIdx.map (fun e => (Config.tieKey (n + e.2), e.1))).foldr insertByKey []).map Prod.snd

/-- The events due at the present tick, in a free order, then line period 0 of a new output frame. -/
def State.dueEvents (s : State) : List Instr :=
  orderFree s.ties (s.dueExpiries ++ s.dueTiming.1) ++ s.dueTiming.2

/-- The events due are queued, and the output timing waits for the next line period. -/
def State.queueDue (s : State) : State :=
  { s with
    pending := s.pending ++ s.dueEvents,
    ties := s.ties + (s.dueExpiries ++ s.dueTiming.1).length,
    timing := match s.timing.periodDue with
      | some k => { s.timing with nextPeriod := k.val + 1 }
      | none => s.timing }

/-- The tick counter goes on by 1, wrapping, and the output timing with it (R130, R209). -/
def State.advanceTick (s : State) : State := { s with tick := s.tick + 1, timing := s.timing.advance }

/-- What the part does while no command waits (log entry 10): nothing while the reset input is asserted (R209). -/
def State.idle (s : State) : State :=
  if s.inReset then s
  else if s.dueExpiries ++ s.dueTiming.1 = [] then s.advanceTick
  else s.queueDue

end Sys2Proof.Machine
end

