-- ==== Sys2Proof/WellFormed.lean ====
section
/-! DEFINITION. The commands that name themselves rightly: a packet stands under the row that its code and selector words choose (R198,
R199, R202, R207, R211), and a dropped packet is one that the link port drops (R195, R211). Every command runs, well-formed or not; a
packet under another row is refused by that row's own checks. -/

namespace Sys2Proof

/-- The selector word S0 names a given READ_ITEM item (R199, R211). -/
def Packet.names (p : Packet) (item : Word) : Bool := decide (p.s0 = item)

/-- The row of a command is the one that its words choose. -/
def Instr.wellFormed : Instr → Bool
  | .unknownDirective _ code _ => decide (code.toNat = 0) || decide (18 < code.toNat)
  | .packetDropped _ ws => dropped ws
  | .frameHistory _ p => decide (p.s0.toNat = 0) || decide (9 < p.s0.toNat)
  | .faultRecord _ p => p.names 1
  | .errorLog _ p => p.names 2
  | .exposureState _ p => p.names 3
  | .glareLevels _ p => p.names 4
  | .windowState _ p => p.names 5
  | .slotState _ p => p.names 6
  | .tableState _ p => p.names 7
  | .defectEntry _ p => p.names 8
  | .partState _ p => p.names 9
  | .setProfileModeForce _ p => decide (p.s0 ≠ 0)
  | .setProfileModeAuto _ p => decide (p.s0 = 0)
  | .injectErrorFrameStore _ p => decide (p.s0.extractLsb' 0 2 ≠ 2)
  | .injectErrorTableStore _ p => decide (p.s0.extractLsb' 0 2 = 2)
  | .frameBeginMarker _ => true
  | .line _ _ => true
  | .frameEndMarker _ => true
  | .lossExpiry _ => true
  | .sensorBusResponse _ _ => true
  | .responseTimerExpiry _ => true
  | .articulationTimerExpiry => true
  | .outputFrameStart _ => true
  | .linePeriodStart _ => true
  | .trainingRequest _ => true
  | .ready _ => true
  | .lossOfLock _ => true
  | .statusWord _ _ _ => true
  | .loadTable _ _ => true
  | .commit _ _ => true
  | .articulation _ _ => true
  | .aim _ _ => true
  | .trim _ _ => true
  | .outputMode _ _ => true
  | .defectAdd _ _ => true
  | .defectRemove _ _ => true
  | .defectSplit _ _ => true
  | .ackFault _ _ => true
  | .noticeMask _ _ => true
  | .clearErrorLog _ _ => true
  | .lock _ _ => true
  | .sensorWrite _ _ => true
  | .restartSide _ _ => true
  | .powerOnReset => true
  | .resetInputAsserted => true

end Sys2Proof
end

