-- ==== Sys2Proof/Safety.lean ====
section
/-! DEFINITION. What counts as a safe run: no step stops, and the laws of the state that the chapters give hold in every state. Beside
them, the words in which statements about the part are made: an admitted directive, a reply, and the packet a command carries. -/

namespace Sys2Proof

/-- The link and the packet of a directive (R198). -/
def Instr.directivePacket : Instr → Option (Side × Packet)
  | .unknownDirective l _ p => some (l, p)
  | .frameHistory l p => some (l, p)
  | .faultRecord l p => some (l, p)
  | .errorLog l p => some (l, p)
  | .exposureState l p => some (l, p)
  | .glareLevels l p => some (l, p)
  | .windowState l p => some (l, p)
  | .slotState l p => some (l, p)
  | .tableState l p => some (l, p)
  | .defectEntry l p => some (l, p)
  | .partState l p => some (l, p)
  | .loadTable l p => some (l, p)
  | .commit l p => some (l, p)
  | .setProfileModeForce l p => some (l, p)
  | .setProfileModeAuto l p => some (l, p)
  | .articulation l p => some (l, p)
  | .aim l p => some (l, p)
  | .trim l p => some (l, p)
  | .outputMode l p => some (l, p)
  | .defectAdd l p => some (l, p)
  | .defectRemove l p => some (l, p)
  | .defectSplit l p => some (l, p)
  | .ackFault l p => some (l, p)
  | .noticeMask l p => some (l, p)
  | .clearErrorLog l p => some (l, p)
  | .injectErrorFrameStore l p => some (l, p)
  | .injectErrorTableStore l p => some (l, p)
  | .lock l p => some (l, p)
  | .sensorWrite l p => some (l, p)
  | .restartSide l p => some (l, p)
  | .frameBeginMarker _ => none
  | .line _ _ => none
  | .frameEndMarker _ => none
  | .lossExpiry _ => none
  | .sensorBusResponse _ _ => none
  | .responseTimerExpiry _ => none
  | .articulationTimerExpiry => none
  | .outputFrameStart _ => none
  | .linePeriodStart _ => none
  | .trainingRequest _ => none
  | .ready _ => none
  | .lossOfLock _ => none
  | .statusWord _ _ _ => none
  | .packetDropped _ _ => none
  | .powerOnReset => none
  | .resetInputAsserted => none

/-- How many values of the side field a directive takes, by the tables of R198 and R199: 2 for LEFT and RIGHT, 3 with BOTH, and all 4
where it does not read the field. ACK_FAULT reads it by its class (R179), and a packet of an unknown code is not read at all. -/
def Instr.sideValues : Instr → Nat
  | .frameHistory _ _ => 2
  | .exposureState _ _ => 2
  | .glareLevels _ _ => 2
  | .windowState _ _ => 2
  | .slotState _ _ => 2
  | .tableState _ _ => 2
  | .defectEntry _ _ => 2
  | .loadTable _ _ => 2
  | .commit _ _ => 2
  | .setProfileModeForce _ _ => 3
  | .setProfileModeAuto _ _ => 3
  | .aim _ _ => 3
  | .trim _ _ => 3
  | .outputMode _ _ => 3
  | .defectAdd _ _ => 3
  | .defectRemove _ _ => 3
  | .noticeMask _ _ => 3
  | .sensorWrite _ _ => 3
  | .restartSide _ _ => 3
  | .unknownDirective _ _ _ => 4
  | .faultRecord _ _ => 4
  | .errorLog _ _ => 4
  | .partState _ _ => 4
  | .articulation _ _ => 4
  | .defectSplit _ _ => 4
  | .ackFault _ _ => 4
  | .clearErrorLog _ _ => 4
  | .injectErrorFrameStore _ _ => 4
  | .injectErrorTableStore _ _ => 4
  | .lock _ _ => 4
  | .frameBeginMarker _ => 4
  | .line _ _ => 4
  | .frameEndMarker _ => 4
  | .lossExpiry _ => 4
  | .sensorBusResponse _ _ => 4
  | .responseTimerExpiry _ => 4
  | .articulationTimerExpiry => 4
  | .outputFrameStart _ => 4
  | .linePeriodStart _ => 4
  | .trainingRequest _ => 4
  | .ready _ => 4
  | .lossOfLock _ => 4
  | .statusWord _ _ _ => 4
  | .packetDropped _ _ => 4
  | .powerOnReset => 4
  | .resetInputAsserted => 4

/-- The packet carries no argument words and says so (R198, R211). -/
def Packet.Plain (p : Packet) : Prop := p.length = 0 ∧ p.args = []

/-- The length field is the number of argument words carried, at most 32 (R198). -/
def Packet.Sized (p : Packet) : Prop := p.args.length = p.length.toNat ∧ p.args.length ≤ 32

namespace Machine

/-- The part takes events, and a directive packet that comes on the link is admitted (R195, R196, R209). -/
def State.Admits (s : State) (l : Side) : Prop :=
  s.inReset = false ∧ (s.link l).state = .up ∧ (s.link l).replies.length < 8

/-- A link with one more reply in its queue (R196, R197). -/
def Link.Queued (k : Link) (tag : BitVec 8) (reason : Option Reason) (data : List Word) : Link :=
  { k with replies := k.replies ++ [.ready { tag := tag, reason := reason, data := data }] }

/-- The state with a reply queued on a link and nothing else changed. -/
def State.Answered (s : State) (l : Side) (tag : BitVec 8) (reason : Option Reason) (data : List Word) : State :=
  { s with links := s.links.set l ((s.link l).Queued tag reason data) }

/-- A reply queue entry's tag (R196). -/
def ReplyEntry.tag : ReplyEntry → BitVec 8
  | .ready r => r.tag
  | .reserved tag _ => tag

/-- An event of one side leaves the other side, both memories, the articulation record, the locks and the time base as they were; it
may queue notices on both links, and it may change the fault records named (section 9.4). -/
def State.EventOf (s t : State) (x : Side) (records : List RecordId) : Prop :=
  t.side x.other = s.side x.other ∧
  (∀ l, { t.link l with notices := (s.link l).notices } = s.link l) ∧
  (∀ i, i ∉ records → t.faults.get i = s.faults.get i) ∧
  { t with sides := s.sides, links := s.links, faults := s.faults } = s

/-- The rows of the frame store that the next active line of a side's frame in flight completes, each with its slot (R59, R71, R76): the
output rows whose source cell row is completed by the line. -/
def State.rowsCompleted (s : State) (x : Side) (n : Nat) : List (SlotNo × Nat) :=
  let d := (s.side x).dev
  match d.frame, d.inputs with
  | some _, some inp =>
    match inp.slot with
    | some m =>
      ((completedRows inp.defects n).map (fun cy =>
        ((framePanes (d.geometry.getD .live) (s.layoutOf x) inp).map (fun p =>
          ((List.range p.1.height).filter (fun yp => decide (p.1.sourceRow yp = cy))).map
            (fun yp => (m, p.1.firstRow + yp)))).flatten)).flatten
    | none => []
  | _, _ => []

/-- The result FRESH of an output frame start of a side (R113): a READY slot of the geometry that the requested mode asks for, no older
than the age limit. -/
def State.FreshAt (s : State) (x : Side) : Prop :=
  ∃ n c, ((s.side x).store.slots.get n).state = .ready ∧ ((s.side x).store.slots.get n).content = some c ∧
    c.geometry = (s.side x).comp.requested.geometry ∧ ticksSince s.tick c.source.arrival ≤ (s.layoutOf x).ageLimit

/-! ## What the blocks do in one event, rule by rule -/

/-- The exposure unit at the start of frame `f` (R29 to R31, R45): `e` becomes `u`. The scheduled bank is in force; due entries are
retired, the latest of them into force, and entries too far ahead dropped; then the frame, whose embedded status gives integration time
`iEmb` and gain code `code`, is matched, rebuilt or seeded under the limits of the profile record and the sensor record. -/
def Exposure.StartsFrame (e u : Exposure) (p : Profile) (n : Sensor) (f : FrameNo) (iEmb code : Nat) (matched : Bool) : Prop :=
  ∃ (base : Option ExpRecord) (aEmb i : Nat),
    base = (match (e.pendingQueue.filter (fun q => decide (q.target = f) || later f q.target)).getLast? with
      | some q => some q.record
      | none => e.inForce) ∧
    aEmb = min (32 * code) (32 * n.gainMax) ∧ i = max 1 (min iEmb (min p.imax n.imaxHw)) ∧
    u.bank = e.scheduled.getD e.bank ∧ u.scheduled = none ∧
    u.pendingQueue =
      e.pendingQueue.filter (fun q => !(decide (q.target = f) || later f q.target) && !later q.target (f + 3)) ∧
    (base = none → matched = true ∧ u.mismatchCount = 0 ∧ u.mismatchCond = e.mismatchCond ∧
      u.inForce = some { total := logLevel i + aEmb, integ := i, analog := aEmb, digital := 0 }) ∧
    (∀ r, base = some r → iEmb = r.integ → aEmb = r.analog → iEmb ≤ min p.imax n.imaxHw →
      matched = true ∧ u.mismatchCount = 0 ∧ u.mismatchCond = false ∧ u.inForce = some r) ∧
    (∀ r d, base = some r → ¬ (iEmb = r.integ ∧ aEmb = r.analog ∧ iEmb ≤ min p.imax n.imaxHw) →
      d = min (r.total - logLevel i - aEmb) p.dMax →
      matched = false ∧ u.mismatchCount = min (e.mismatchCount + 1) 255 ∧
      u.mismatchCond = (e.mismatchCond || decide (3 ≤ u.mismatchCount)) ∧
      u.inForce = some { total := logLevel i + aEmb + d, integ := i, analog := aEmb, digital := d }) ∧
    { u with bank := e.bank, scheduled := e.scheduled, pendingQueue := e.pendingQueue, inForce := e.inForce,
             mismatchCount := e.mismatchCount, mismatchCond := e.mismatchCond } = e

/-- The framing unit at a frame start (R100, R102, R103): `f` becomes `g`. The pan target comes from the articulation record and the PAN
nodes, the aim offsets are limited, the current pan moves by at most the pan rate, and the windows follow with their clamp marks. -/
def Framing.StartsFrame (f g : Framing) (x : Side) (art : Articulation) (l : Layout) (pan : List Word) : Prop :=
  g.aimDx = max (-(l.axMax : Int)) (min f.aimDx l.axMax) ∧ g.aimDy = max (-(l.ayMax : Int)) (min f.aimDy l.ayMax) ∧
  ((art.stale = true ∨ art.angle = 0 ∨ (x = .left ∧ 0 < art.angle) ∨ (x = .right ∧ art.angle < 0)) → g.panTarget = 0) ∧
  (∀ k r, art.stale = false → (x = .right ∧ 0 < art.angle) ∨ (x = .left ∧ art.angle < 0) →
    art.angle.natAbs = 25 * k + r → r < 25 →
    (18 ≤ k → g.panTarget = numAt pan 18) ∧
    (k < 18 → numAt pan k ≤ numAt pan (k + 1) →
      g.panTarget = numAt pan k + (numAt pan (k + 1) - numAt pan k) * r / 25)) ∧
  g.panCur = (if f.panCur < g.panTarget then min g.panTarget (f.panCur + l.panRate)
    else max g.panTarget (f.panCur - l.panRate)) ∧
  ∃ w, g.windows = some w ∧ w.wide = l.wide ∧ w.main.w = l.mainHome.w ∧ w.main.h = l.mainHome.h ∧
    (∀ raw lo hi : Int, raw = l.mainHome.x + g.aimDx + l.outward * g.panCur →
      lo = max 0 ((l.mainRequired.x : Int) + l.mainRequired.w - l.mainHome.w) →
      hi = min (l.mainRequired.x : Int) (960 - (l.mainHome.w : Int)) →
      w.main.x = (max lo (min raw hi)).toNat ∧
      w.markX = if raw < lo then ClampMark.low else if hi < raw then ClampMark.high else ClampMark.unclamped) ∧
    (∀ raw lo hi : Int, raw = l.mainHome.y + g.aimDy →
      lo = max 0 ((l.mainRequired.y : Int) + l.mainRequired.h - l.mainHome.h) →
      hi = min (l.mainRequired.y : Int) (1280 - (l.mainHome.h : Int)) →
      w.main.y = (max lo (min raw hi)).toNat ∧
      w.markY = if raw < lo then ClampMark.low else if hi < raw then ClampMark.high else ClampMark.unclamped)

/-- A frame of bank `b` with the scene level meets a condition of the ladder that leads toward bank `k` (R44). -/
def Ladder.Leads (l : Ladder) (b k : Bank) (scene : Int) : Prop :=
  (b = 0 ∧ k = 1 ∧ scene < l.dayToDusk) ∨
  (b = 1 ∧ k = 2 ∧ scene < l.duskToNight ∧ ¬ l.duskToDay < scene) ∨
  (b = 1 ∧ k = 0 ∧ l.duskToDay < scene ∧ ¬ scene < l.duskToNight) ∨
  (b = 2 ∧ k = 1 ∧ l.nightToDusk < scene)

/-- The ladder at a good frame end of a frame of bank `b` with a scene level (R44, R45): `e` becomes `u`. -/
def Exposure.TakesLadder (e u : Exposure) (l : Ladder) (b : Bank) (scene : Int) : Prop :=
  ((e.mode ≠ .auto ∨ b = 3) → u = e) ∧
  (e.mode = .auto → b ≠ 3 → (∀ k, ¬ l.Leads b k scene) → u = { e with dwell := 0, direction := none }) ∧
  (∀ k n, e.mode = .auto → l.Leads b k scene → n = (if 0 < e.dwell ∧ e.direction = some k then e.dwell + 1 else 1) →
    u = if l.dwell ≤ n then { e with scheduled := some k, dwell := 0, direction := none }
      else { e with dwell := n, direction := some k })

/-- A table word of 22 bits as read, with the injection of the table store after the read (R172). -/
def State.TableReads (s : State) (addr : Nat) (w : BitVec 22) (after : Option Injection) : Prop :=
  (s.tableStore.injection = none ∧ w = Mem.read tableDefault s.tableStore.mem addr ∧ after = none) ∨
  (∃ i, s.tableStore.injection = some i ∧
    (((i.trigger = .address addr ∨ i.trigger = .count (i.reads + 1)) ∧
        w = Mem.read tableDefault s.tableStore.mem addr ^^^ (if i.kind = .single then 8 else 40) ∧ after = none) ∨
      ((∃ a, i.trigger = .address a ∧ a ≠ addr) ∧ w = Mem.read tableDefault s.tableStore.mem addr ∧ after = some i) ∨
      ((∃ n, i.trigger = .count n ∧ n ≠ i.reads + 1) ∧ w = Mem.read tableDefault s.tableStore.mem addr ∧
        after = some { i with reads := i.reads + 1 })))

/-- The data that a word as read delivers: its own, the corrected word's, or none where it is uncorrectable (R120, R156). -/
def delivered {n : Nat} (c k : Nat) (w : BitVec n) : Option (BitVec k) :=
  match checkWord c w with
  | .clean => some (dataOf k w)
  | .corrected _ v => some (dataOf k v)
  | .uncorrectable _ => none

/-- No COUNT trigger is armed for the table store, so that what a read takes depends on its address alone (R172). -/
def State.NoCountTrigger (s : State) : Prop := ∀ i n, s.tableStore.injection = some i → i.trigger ≠ .count n

/-- The bits that the next read of an address of the table store takes, where no COUNT trigger is armed (R172). -/
def State.bitsAt (s : State) (a : Nat) : BitVec 22 :=
  match s.tableStore.injection with
  | some { kind := k, trigger := .address b, .. } =>
    if b = a then Mem.read tableDefault s.tableStore.mem a ^^^ (if k = .single then 8 else 40)
    else Mem.read tableDefault s.tableStore.mem a
  | _ => Mem.read tableDefault s.tableStore.mem a

/-- The data that the next read of an address of the table store delivers, where no COUNT trigger is armed (R156). -/
def State.dataAt (s : State) (a : Nat) : Option Word := delivered 5 16 (s.bitsAt a)

/-- The read run of bank `p` of a table, which is not poisoned, finds its first uncorrectable word at index `j`, which poisons the bank
(R156, R157). -/
def State.BankFails (s : State) (x : Side) (tb : TableId) (p : PhysBank) (j : Nat) : Prop :=
  ((s.side x).tables.ctl.get tb).bad p = none ∧ j < tb.words ∧ s.dataAt (tableAddr x tb p j) = none ∧
  ∀ i, i < j → s.dataAt (tableAddr x tb p i) ≠ none

/-- An entry of a side's defect list as the next read delivers it, or none where it is lost (R169, R213). -/
def State.entryAt (s : State) (x : Side) (i : Nat) : Option DefectEntry :=
  match s.dataAt (poolAddr x s.tableStore.leftShare i), s.dataAt (poolAddr x s.tableStore.leftShare i + 1) with
  | some a, some b => some { row := a.toNat, col := b.toNat % 2048, cls := b.extractLsb' 14 2 }
  | _, _ => none

/-- The entries of a side's defect list that a read of the whole list delivers (R169). -/
def State.entriesRead (s : State) (x : Side) : List DefectEntry :=
  (List.range (s.side x).tables.defectCount).filterMap (s.entryAt x)

/-- The words of a side's share from its first entry on hold these entries, with correct check bits (R155, R169, R213). -/
def State.HoldsEntries (s : State) (x : Side) (es : List DefectEntry) : Prop :=
  ∀ i e, es[i]? = some e →
    Mem.read tableDefault s.tableStore.mem (poolAddr x s.tableStore.leftShare i) = encodeWord 22 (BitVec.ofNat 16 e.row) ∧
    Mem.read tableDefault s.tableStore.mem (poolAddr x s.tableStore.leftShare i + 1) =
      encodeWord 22 (BitVec.ofNat 16 (e.col % 2048 + 16384 * e.cls.toNat))

/-- A read of a side's whole defect list with its pending edits, from `s` to `t` (R57, R169): lost entries leave the list, the edits are
applied to the others, and the resulting list is written back if an entry was lost or an edit applied. -/
def State.TakesEdits (s t : State) (x : Side) : Prop :=
  ∀ (read new : List DefectEntry) (lost : Bool), read = s.entriesRead x → new = applyEdits read (s.side x).dev.edits →
    lost = decide (read.length < (s.side x).tables.defectCount) →
    (t.side x).dev.edits = [] ∧ (t.side x).tables.defectCount = new.length ∧
    ((lost = true ∨ (s.side x).dev.edits ≠ []) → t.HoldsEntries x new) ∧
    (t.side x).tables.defectLoss = ((s.side x).tables.defectLoss || lost) ∧
    (lost = true → (t.side x).tables.poisonCond = true ∧ (t.faults.get (.side .tablePoisoned x)).state ≠ .clear)

/-- Neither an active bank of a side nor its defect list is bad (R164). -/
def SideTables.Healed (d : SideTables) : Prop :=
  d.defectLoss = false ∧ ∀ tb, (d.ctl.get tb).bad (d.ctl.get tb).active = none

/-- A side's condition TABLE_POISONED is as it was. -/
def State.KeepsPoison (s t : State) (x : Side) : Prop :=
  (t.side x).tables.poisonCond = (s.side x).tables.poisonCond ∧
  t.faults.get (.side .tablePoisoned x) = s.faults.get (.side .tablePoisoned x)

/-- A swap that leaves a side healed ends TABLE_POISONED where it is in force; otherwise the condition stays as it was (R162, R164). -/
def State.SwapEndsPoison (s t : State) (x : Side) : Prop :=
  ((s.side x).tables.poisonCond = true → (t.side x).tables.Healed →
    (t.side x).tables.poisonCond = false ∧ (t.faults.get (.side .tablePoisoned x)).state = .clear) ∧
  (¬ ((s.side x).tables.poisonCond = true ∧ (t.side x).tables.Healed) → s.KeepsPoison t x)

/-- A reply queue of link `l` after the swap of the pending commits of the sides `xs`: a reservation that a commit holds there has its DONE
reply in its place (R162, R197). -/
def State.repliesSwapped (s : State) (xs : List Side) (l : Side) : List ReplyEntry :=
  (s.link l).replies.map (fun e => match e with
    | .ready q => .ready q
    | .reserved tag y =>
      match (s.side y).tables.commit with
      | some c =>
        if y ∈ xs ∧ c.link = some l then .ready { tag := tag, reason := none, data := [c.tables.setWidth 16] } else .reserved tag y
      | none => .reserved tag y)

/-- A side's FILLING slot is freed with outcome DISCARDED in the record it links to, and its other slots and records stay (R112,
R115): `d` becomes `e`. -/
def SideState.DiscardsFilling (d e : SideState) : Prop :=
  (∀ n, e.store.slots.get n =
    if (d.store.slots.get n).state = .filling then (d.store.slots.get n).freed else d.store.slots.get n) ∧
  (∀ n c, (d.store.slots.get n).state = .filling → (d.store.slots.get n).content = some c →
    e.history = d.history.map (fun r => if r.serial = c.link then { r with outcome := .discarded } else r)) ∧
  ((∀ n, (d.store.slots.get n).state ≠ .filling) → e.history = d.history)

/-- With the entries `rest` left at tick `now`, the bus is IDLE without a transaction when there is none, and else has opened the
first attempt on the first of them (R18). -/
def Bus.GoesOn (b : Bus) (rest : List WriteEntry) (now : Tick) : Prop :=
  (rest = [] → b.state = .idle ∧ b.transaction = none ∧ b.attempts = 0) ∧
  (∀ n more, rest = n :: more → b.state = .sending ∧ b.attempts = 1 ∧ b.timerStart = now ∧
    b.transaction.map (fun w => (w.register, w.value)) = some (n.register, n.value))

/-- An attempt is opened on entry `e` (R18): the transaction carries the device address of the SENSOR table in use, with the entry's
register and value. A poisoned active bank gives the ROM default's address, and so does one that becomes poisoned by the read of its word
(R156, R164). -/
def State.OpensAttempt (s t : State) (x : Side) (e : WriteEntry) : Prop :=
  ∃ device : BitVec 8, t.opened = s.opened + 1 ∧
    (t.side x).bus.transaction = some { number := s.opened, device := device, register := e.register, value := e.value } ∧
    ∀ c : TableCtl, c = (s.side x).tables.ctl.sensor →
      (c.bad c.active ≠ none → device = 0x2C ∧ t.tableStore = s.tableStore) ∧
      (c.bad c.active = none → ∀ w after, s.TableReads (tableAddr x .sensor c.active 0) w after →
        t.tableStore.injection = after ∧
        (∀ v : Word, delivered 5 16 w = some v → device = v.extractLsb' 8 8 ∧ (t.side x).tables = (s.side x).tables) ∧
        ((delivered 5 16 w : Option Word) = none → device = 0x2C ∧ ((t.side x).tables.ctl.sensor).bad c.active = some 0 ∧
          (t.side x).tables.poisonCond = true ∧ (t.faults.get (.side .tablePoisoned x)).state ≠ .clear ∧
          (t.faults.get (.side .tablePoisoned x)).detail = 12))

/-- The entries of a write buffer without their sent flags. -/
def WriteEntry.asQueued (w : WriteEntry) : Word × Word × Origin × BitVec 8 := (w.register, w.value, w.origin, w.group)

/-- The head that a side restart left to finish leaves the buffer and the entries `rest` go on; nothing is reported to the exposure
unit, and SENSOR_BUS stays as it is (R22). -/
def State.HeadFinishes (s t : State) (x : Side) (rest : List WriteEntry) : Prop :=
  (t.side x).bus.buffer.map WriteEntry.asQueued = rest.map WriteEntry.asQueued ∧ (t.side x).bus.finishing = false ∧
  (t.side x).bus.GoesOn rest s.tick ∧ (∀ n more, rest = n :: more → s.OpensAttempt t x n) ∧
  (t.side x).exposure = (s.side x).exposure ∧
  (t.side x).bus.busCond = (s.side x).bus.busCond ∧
  t.faults.get (.side .sensorBus x) = s.faults.get (.side .sensorBus x)

/-- The end of a failed attempt on the head `e`, with `rest` waiting behind it (R20, R22, R42): the next attempt on `e`, or after the third
SENSOR_BUS with the entries of the head's group, and their item, dropped; a head that a side restart left to finish leaves alone. -/
def State.FailsAttempt (s t : State) (x : Side) (e : WriteEntry) (rest : List WriteEntry) : Prop :=
  ((s.side x).bus.finishing = true → s.HeadFinishes t x rest) ∧
  ((s.side x).bus.finishing = false → (s.side x).bus.attempts < 3 →
    (t.side x).bus.attempts = (s.side x).bus.attempts + 1 ∧ (t.side x).bus.buffer = e :: rest ∧
    (t.side x).bus.state = .sending ∧ (t.side x).bus.timerStart = s.tick ∧ s.OpensAttempt t x e ∧
    (t.side x).bus.transaction.map (fun w => (w.register, w.value)) = some (e.register, e.value) ∧
    (t.side x).bus.busCond = (s.side x).bus.busCond ∧ (t.side x).exposure = (s.side x).exposure) ∧
  (∀ left : List WriteEntry, (s.side x).bus.finishing = false → 3 ≤ (s.side x).bus.attempts →
    left = rest.filter (fun w => decide (e.origin = .service ∨ w.group ≠ e.group)) →
    (t.side x).bus.busCond = true ∧ (t.faults.get (.side .sensorBus x)).state ≠ .clear ∧
    (t.faults.get (.side .sensorBus x)).detail = e.register ∧
    (t.side x).bus.buffer.map WriteEntry.asQueued = left.map WriteEntry.asQueued ∧ (t.side x).bus.GoesOn left s.tick ∧
    (∀ n more, left = n :: more → s.OpensAttempt t x n) ∧
    (e.origin = .exposure → (t.side x).exposure =
      { (s.side x).exposure with
          outstanding := (s.side x).exposure.outstanding.filter (fun o => decide (o.group ≠ e.group)) }) ∧
    (e.origin = .service → (t.side x).exposure = (s.side x).exposure)) ∧
  t.side x.other = s.side x.other ∧ t.frameStore = s.frameStore

/-- The exposure unit asks for a group for record `r` at tick `now`, and takes the bus master's report (R16, R18, R39): the exposure unit
goes from `e` to `u` and the bus master from `b` to `c`. -/
def Exposure.Requests (e u : Exposure) (b c : Bus) (n : Sensor) (r : ExpRecord) (now : Tick) : Prop :=
  ∀ left queued : List WriteEntry,
    left = b.buffer.filter (fun w => !(decide (w.origin = .exposure) && !w.sent)) →
    queued = left ++
      [{ register := n.integRegister, value := BitVec.ofNat 16 r.integ, origin := .exposure, group := b.groupCounter, sent := false },
       { register := n.gainRegister, value := BitVec.ofNat 16 (r.analog / 32), origin := .exposure, group := b.groupCounter,
         sent := false }] →
    (14 < left.length → u = e ∧ c = { b with buffer := left }) ∧
    (left.length ≤ 14 →
      u = { e with outstanding :=
        e.outstanding.filter (fun o => !decide (some o.group =
          (b.buffer.find? (fun w => decide (w.origin = .exposure) && !w.sent)).map WriteEntry.group)) ++
          [{ group := b.groupCounter, record := r }] } ∧
      c.groupCounter = b.groupCounter + 1 ∧ c.buffer.map WriteEntry.asQueued = queued.map WriteEntry.asQueued ∧
      (b.state = .sending → c = { b with buffer := queued, groupCounter := b.groupCounter + 1 }) ∧
      (b.state = .idle → c.GoesOn queued now))

/-- The warning sample of a side, from the states of its records at step 6 (R144). -/
def Overlay.Samples (o : Overlay) (f : SideClass → RecordState) : Prop :=
  ∀ has : Severity → RecordState → Prop, (∀ v r, has v r ↔ ∃ c : SideClass, c.severity = v ∧ f c = r) →
    (has .fault .active → o = .redBand) ∧
    (¬ has .fault .active → has .caution .active → o = .amberBand) ∧
    (¬ has .fault .active → ¬ has .caution .active → has .fault .acked → o = .redSquare) ∧
    (¬ has .fault .active → ¬ has .caution .active → ¬ has .fault .acked → has .caution .acked → o = .amberSquare) ∧
    (¬ has .fault .active → ¬ has .caution .active → ¬ has .fault .acked → ¬ has .caution .acked → o = .clear)

/-- The echo check of an output frame start and what it makes of DISPLAY_FREEZE (R148, R149), from `s` to `t`. -/
def State.ChecksEcho (s t : State) (x : Side) : Prop :=
  ∀ (c d : Composer) (lag : Option Nat) (bad : Prop), c = (s.side x).comp → d = (t.side x).comp →
    lag = c.status.map (fun w => (c.frameCount - w.echo).toNat) →
    (bad ↔ 6 ≤ d.silence ∨ c.status.map StatusWord.panelFault = some true ∨ d.lagStrikes = 2) →
    ((s.link x).state ≠ .up →
      d.silence = c.silence ∧ d.lagStrikes = c.lagStrikes ∧ d.goodChecks = c.goodChecks ∧ d.freezeCond = c.freezeCond ∧
      t.faults.get (.side .displayFreeze x) = s.faults.get (.side .displayFreeze x)) ∧
    ((s.link x).state = .up →
      d.silence = min (c.silence + 1) 255 ∧
      (∀ n, lag = some n → 3 < n → d.lagStrikes = min (c.lagStrikes + 1) 2) ∧
      ((lag = none ∨ ∃ n, lag = some n ∧ n ≤ 3) → d.lagStrikes = 0) ∧
      (bad → d.goodChecks = 0 ∧ d.freezeCond = true ∧ (t.faults.get (.side .displayFreeze x)).state ≠ .clear ∧
        (t.faults.get (.side .displayFreeze x)).detail = BitVec.ofNat 16 (min (lag.getD 65535) 65535)) ∧
      (¬ bad → d.lagStrikes = 0 → 1 ≤ c.goodChecks → c.freezeCond = true →
        d.goodChecks = 0 ∧ d.freezeCond = false ∧ (t.faults.get (.side .displayFreeze x)).state = .clear) ∧
      (¬ bad → ¬ (d.lagStrikes = 0 ∧ 1 ≤ c.goodChecks ∧ c.freezeCond = true) →
        d.goodChecks = (if d.lagStrikes = 0 then min (c.goodChecks + 1) 2 else 0) ∧ d.freezeCond = c.freezeCond ∧
        t.faults.get (.side .displayFreeze x) = s.faults.get (.side .displayFreeze x)))

/-- The output frame that ends is closed: the clean count and the end of FRAME_STORE_ERROR (R123), from `s` to `t`. -/
def State.ClosesOutputFrame (s t : State) (x : Side) : Prop :=
  ∀ (a b : SideStore), a = (s.side x).store → b = (t.side x).store →
    ((s.side x).comp.content = none → b.cleanCount = a.cleanCount) ∧
    ((s.side x).comp.content ≠ none →
      b.cleanCount = (if a.frameDirty then a.cleanCount else min (a.cleanCount + 1) 60) ∧ b.frameDirty = false) ∧
    ((s.side x).comp.content ≠ none → a.frameDirty = false → 59 ≤ a.cleanCount → a.fseCond = true →
      b.fseCond = false ∧ (t.faults.get (.side .frameStoreError x)).state = .clear) ∧
    (((s.side x).comp.content = none ∨ a.frameDirty = true ∨ a.cleanCount < 59 ∨ a.fseCond = false) →
      b.fseCond = a.fseCond ∧ t.faults.get (.side .frameStoreError x) = s.faults.get (.side .frameStoreError x))

/-- The view reports of an output frame start with repeat count `n`, from `s` to `t` (R138 to R140, R143): VIEW_STALE is set on entering STALE
and ended on leaving it, VIEW_LOST is set on entering LOST from STARTING, LIVE_OK or STALE and ended on reaching LIVE_OK from LOST or
RECOVERING. -/
def State.ReportsView (s t : State) (x : Side) (n : Nat) : Prop :=
  ∀ (v w : ViewState), v = (s.side x).comp.view → w = (t.side x).comp.view →
    (v ≠ .stale → w = .stale → (t.side x).comp.staleCond = true ∧ (t.faults.get (.side .viewStale x)).state ≠ .clear ∧
      (t.faults.get (.side .viewStale x)).detail = BitVec.ofNat 16 n) ∧
    (v = .stale → w ≠ .stale →
      (t.side x).comp.staleCond = false ∧ (t.faults.get (.side .viewStale x)).state = .clear) ∧
    ((v = .stale ↔ w = .stale) → (t.side x).comp.staleCond = (s.side x).comp.staleCond ∧
      t.faults.get (.side .viewStale x) = s.faults.get (.side .viewStale x)) ∧
    ((v = .starting ∨ v = .liveOk ∨ v = .stale) → w = .lost →
      (t.side x).comp.lostCond = true ∧ (t.faults.get (.side .viewLost x)).state ≠ .clear ∧
      (t.faults.get (.side .viewLost x)).detail =
        BitVec.ofNat 16 (if v = .starting then min ((s.side x).comp.startCount + 1) 600 else n)) ∧
    ((v = .lost ∨ v = .recovering) → w = .liveOk →
      (t.side x).comp.lostCond = false ∧ (t.faults.get (.side .viewLost x)).state = .clear) ∧
    (((v = .lost ∨ v = .recovering) ∧ w ≠ .liveOk ∨ (v ≠ .lost ∧ v ≠ .recovering ∧ w ≠ .lost)) →
      (t.side x).comp.lostCond = (s.side x).comp.lostCond ∧
      t.faults.get (.side .viewLost x) = s.faults.get (.side .viewLost x))

/-- No read of active line `y` finds an error: no injection is armed for the frame store, and the row's words of each picture shown read
clean (R118, R120). -/
def State.PicturesReadClean (s : State) (y : Nat) : Prop :=
  s.frameStore.injection = none ∧ ∀ (x : Side) (n : SlotNo) (src : Source) (age : Tick),
    (s.side x).comp.content = some (.picture n src age) →
    ∀ w, w < 270 → checkWord 7 (Mem.read frameDefault s.frameStore.mem (frameAddr x n y w)) = .clean

/-- The words of a forward packet: these words, and a check word that makes the sum of all 0 (R211). -/
def IsPacket (ws body : List Word) : Prop := ∃ chk, ws = body ++ [chk] ∧ wordSum ws = 0

/-- An error log after reads of a side in order, each an address and the word as read (R124, R171): an empty log takes the first error,
and a CORRECTED record gives way to an uncorrectable error. -/
def logAfter {n : Nat} (c : Nat) (x : Side) (log : Option LogRecord) (reads : List (Nat × BitVec n)) : Option LogRecord :=
  reads.foldl (fun h r =>
    match checkWord c r.2, h with
    | .clean, h => h
    | .corrected y _, none => some { kind := .corrected, addr := r.1, syndrome := y, side := x }
    | .corrected _ _, some k => some k
    | .uncorrectable y, none => some { kind := .uncorrectable, addr := r.1, syndrome := y, side := x }
    | .uncorrectable y, some k =>
      if k.kind = .corrected then some { kind := .uncorrectable, addr := r.1, syndrome := y, side := x } else some k) log

/-- A corrected read at an address is reported: corr_cond and ERROR_CORRECTED with the address as detail (R121, R123, R156). -/
def State.ReportsCorrected (t : State) (addr : Nat) : Prop :=
  t.corrCond = true ∧ (t.faults.get (.part .errorCorrected)).state ≠ .clear ∧
  (t.faults.get (.part .errorCorrected)).detail = BitVec.ofNat 16 addr

/-- A side's defect list stands in the pool as `es`, stored without error (R155, R213). -/
def State.HoldsList (s : State) (x : Side) (es : List DefectEntry) : Prop :=
  (s.side x).tables.defectCount = es.length ∧
  ∀ i e, es[i]? = some e → e.row < 65536 ∧ e.col < 2048 ∧
    Mem.read tableDefault s.tableStore.mem (poolAddr x s.tableStore.leftShare i) = encodeWord 22 (BitVec.ofNat 16 e.row) ∧
    Mem.read tableDefault s.tableStore.mem (poolAddr x s.tableStore.leftShare i + 1) =
      encodeWord 22 (BitVec.ofNat 16 (e.col + 16384 * e.cls.toNat))

/-- A side's defect list stands in the pool as `es`, stored without error, with no injection armed that could disturb its reads (R155,
R213). -/
def State.StoresList (s : State) (x : Side) (es : List DefectEntry) : Prop :=
  s.tableStore.injection = none ∧ s.HoldsList x es

/-- The sample at a row and column after defect replacement, `row r` being sample row r after black level (R63). -/
def replacedSample (defects : List (Nat × Nat)) (row : Nat → List Nat) (r col : Nat) : Nat :=
  if (r, col) ∈ defects then
    if 2 ≤ col ∧ (r, col - 2) ∉ defects then
      if col + 2 ≤ 1919 ∧ (r, col + 2) ∉ defects then ((row r).getD (col - 2) 0 + (row r).getD (col + 2) 0) / 2
      else (row r).getD (col - 2) 0
    else if col + 2 ≤ 1919 ∧ (r, col + 2) ∉ defects then (row r).getD (col + 2) 0
    else (row (if 2 ≤ r then r - 2 else r + 2)).getD col 0
  else (row r).getD col 0

/-- A sample row has a defect with no usable neighbour, which is replaced from the row two away (R63). -/
def ReachesBeyond (defects : List (Nat × Nat)) (r : Nat) : Prop :=
  ∃ col, col ≤ 1919 ∧ (r, col) ∈ defects ∧ (col < 2 ∨ (r, col - 2) ∈ defects) ∧ (1917 < col ∨ (r, col + 2) ∈ defects)

/-- A rule of R160 or R97: the word index that its failure names, and what it demands. -/
abbrev ContentRule := Nat × Prop

/-- The rules for the words of a table of a kind, in their order; `u` reads a word unsigned and `z` reads it signed (R43, R97, R160). For
the marker rule of LAYOUT each marker that the count takes in is one rule, and each names the count. -/
def TableKind.rules (k : TableKind) (t : List Word) : List ContentRule :=
  let u := numAt t
  let z := intAt t
  let bits := fun (j lo n : Nat) => ((t.getD j 0).extractLsb' lo n).toNat
  match k with
  | .tone => (List.range 65).map (fun j => (j, u j ≤ 1023 ∧ (1 ≤ j → u (j - 1) ≤ u j)))
  | .profile =>
    [(0, u 0 ≤ 3), (1, 1024 ≤ u 1 ∧ u 1 ≤ 3072), (2, u 2 ≤ 128), (3, 1 ≤ u 3 ∧ u 3 ≤ 16), (4, 16 ≤ u 4 ∧ u 4 ≤ 512),
     (5, 1 ≤ u 5 ∧ u 5 ≤ 4000), (6, u 6 ≤ 512), (7, u 7 ≤ 1), (8, -1024 ≤ z 8 ∧ z 8 ≤ 2048), (9, 1 ≤ u 9 ∧ u 9 ≤ 6400),
     (10, 1 ≤ u 10 ∧ u 10 ≤ 192), (11, 1 ≤ u 11 ∧ u 11 ≤ 15), (12, 1 ≤ u 12 ∧ u 12 ≤ 15), (13, u 13 ≤ 255)]
  | .ladder => [(0, z 0 < z 1), (2, z 2 < z 3), (4, 1 ≤ u 4 ∧ u 4 ≤ 255)]
  | .glareAtt =>
    (List.range 16).map (fun j => (j, (j = 0 → z 0 = 0) ∧ (1 ≤ j → -2048 ≤ z j ∧ z j ≤ 0 ∧ z j ≤ z (j - 1))))
  | .pan => (List.range 19).map (fun j => (j, u j ≤ 240 ∧ (1 ≤ j → u (j - 1) ≤ u j)))
  | .layout =>
    [(0, 640 ≤ u 0 ∧ u 0 ≤ 960 ∧ 8 ∣ u 0),
     (3, 1 ≤ u 3 ∧ 1 ≤ u 4 ∧ u 1 + u 3 ≤ 960 ∧ u 2 + u 4 ≤ 1280),
     (7, 1 ≤ u 7 ∧ 1 ≤ u 8 ∧ u 5 + u 7 ≤ 960 ∧ u 6 + u 8 ≤ 1280),
     (11, 1 ≤ u 11 ∧ 1 ≤ u 12 ∧ u 1 ≤ u 9 ∧ u 9 + u 11 ≤ u 1 + u 3 ∧ u 2 ≤ u 10 ∧ u 10 + u 12 ≤ u 2 + u 4),
     (15, 1 ≤ u 15 ∧ 1 ≤ u 16 ∧ u 5 ≤ u 13 ∧ u 13 + u 15 ≤ u 5 + u 7 ∧ u 6 ≤ u 14 ∧ u 14 + u 16 ≤ u 6 + u 8),
     (3, 1024 ≤ 1024 * u 3 / 720 ∧ 1024 * u 3 / 720 ≤ 3072 ∧ 1024 ≤ 1024 * u 4 / u 0 ∧ 1024 * u 4 / u 0 ≤ 3072),
     (7, 1024 ≤ 1024 * u 7 / 720 ∧ 1024 * u 7 / 720 ≤ 3072 ∧ 1024 ≤ 1024 * u 8 / (1280 - u 0) ∧
       1024 * u 8 / (1280 - u 0) ≤ 3072),
     (17, z 17 = 1 ∨ z 17 = -1), (18, u 18 ≤ 120 ∧ u 19 ≤ 120), (20, 1 ≤ u 20 ∧ u 20 ≤ 32), (21, u 21 ≤ 8)] ++
    (List.range 8).map (fun m => (21, m < u 21 →
      bits (23 + 2 * m) 8 2 ≤ 1 ∧ u (22 + 2 * m) ≤ 1279 ∧ 1 ≤ bits (23 + 2 * m) 4 3 ∧ bits (23 + 2 * m) 4 3 ≤ 4)) ++
    [(38, 2000 ≤ u 38 ∧ u 38 ≤ 20000), (39, 1 ≤ u 39 ∧ u 39 ≤ 30), (40, u 39 + 1 ≤ u 40 ∧ u 40 ≤ 60),
     (41, 1 ≤ u 41 ∧ u 41 ≤ 30), (42, 30 ≤ u 42 ∧ u 42 ≤ 600)]
  | .sensor =>
    [(0, 1 ≤ bits 0 0 8 ∧ bits 0 0 8 ≤ 3), (1, 1 ≤ u 1 ∧ u 1 ≤ 4000), (2, u 2 ≤ 16), (3, u 3 ≤ 1023), (4, u 4 ≤ 1023),
     (5, u 5 ≤ 1023), (6, -256 ≤ z 6 ∧ z 6 ≤ 768), (7, -256 ≤ z 7 ∧ z 7 ≤ 768), (8, -256 ≤ z 8 ∧ z 8 ≤ 768),
     (9, 2000 ≤ u 9 ∧ u 9 ≤ 50000)]

/-- A run is safe when no step of it stops: the step answers a next state. -/
def State.Goes (s : State) : Prop := ∃ t, step s = .next t

/-! ## Laws of the state -/

/-- Both memories are in their canonical form. -/
def State.MemoriesCanonical (s : State) : Prop :=
  Mem.wf frameDefault s.frameStore.mem = true ∧ Mem.wf tableDefault s.tableStore.mem = true

/-- The bounds of the queues of a side and of its link (R6, R15, R40, R56, R184, R196). -/
def State.QueuesBounded (s : State) : Prop :=
  ∀ x : Side,
    (s.link x).replies.length ≤ 8 ∧ (s.link x).notices.Nodup ∧ (s.side x).bus.buffer.length ≤ 16 ∧
    (s.side x).exposure.pendingQueue.length ≤ 4 ∧ (s.side x).history.length ≤ 8 ∧ (s.side x).dev.edits.length ≤ 64

/-- The laws of a side's slots (R52, R109): no two slots share a state but FREE, a slot holds contents exactly while it is not FREE, and
a FILLING slot stands only while the port receives active lines. -/
def SideState.SlotsLawful (d : SideState) : Prop :=
  (∀ n m : SlotNo, (d.store.slots.get n).state = (d.store.slots.get m).state →
    n = m ∨ (d.store.slots.get n).state = .free) ∧
  (∀ n : SlotNo, (d.store.slots.get n).content = none ↔ (d.store.slots.get n).state = .free) ∧
  (∀ n : SlotNo, (d.store.slots.get n).state = .filling → d.port.phase = .lines)

/-- The laws of a side's view (R135, R143): the two condition flags are those of the view state, and a picture is shown only in
LIVE_OK or STALE. -/
def Composer.ViewLawful (c : Composer) : Prop :=
  c.staleCond = decide (c.view = .stale) ∧
  c.lostCond = decide (c.view = .lost ∨ c.view = .recovering) ∧
  (∀ n src age, c.content = some (.picture n src age) → c.view = .liveOk ∨ c.view = .stale)

/-- The reservation of a side's pending commit. -/
def ReplyEntry.reserves (x : Side) : ReplyEntry → Bool
  | .ready _ => false
  | .reserved _ y => decide (y = x)

/-- A link's reply queue holds one reservation for a side's pending commit while that commit holds its reservation there, and none
otherwise (R161, R162, R192). -/
def State.ReservationsLawful (s : State) : Prop :=
  ∀ x l : Side, (s.link l).replies.countP (ReplyEntry.reserves x) =
    if (s.side x).tables.commit.bind PendingCommit.link = some l then 1 else 0

/-- The laws of a bus master (R16, R18, R19): IDLE is without transaction and attempts, and SENDING has 1 to 3 attempts on a head
entry that is marked sent. -/
def Bus.Lawful (b : Bus) : Prop :=
  match b.state with
  | .idle => b.transaction = none ∧ b.attempts = 0
  | .sending => b.transaction ≠ none ∧ 1 ≤ b.attempts ∧ b.attempts ≤ 3 ∧ ∃ e rest, b.buffer = e :: rest ∧ e.sent = true

/-- The numbers of the open transactions lie below that of the next one, so that no transaction opened later has the number of an open
one, nor of one that has closed (R19; the numbers are the model's, log entry 38). -/
def State.NumbersLawful (s : State) : Prop :=
  ∀ (x : Side) (w : Transaction), (s.side x).bus.transaction = some w → w.number < s.opened

/-- The EXPOSURE groups of a side (R15, R16, R18, R39). The outstanding list holds at most 2 items, of different groups that are in the
buffer. At most one EXPOSURE group of the buffer is unsent, and it is whole; sent EXPOSURE entries are of the head's group. The entries of
a group stand together, with one origin and one sent flag. A head that a side restart left to finish is of no outstanding group (R22). -/
def SideState.GroupsLawful (d : SideState) : Prop :=
  d.exposure.outstanding.length ≤ 2 ∧ (d.exposure.outstanding.map OutstandingItem.group).Nodup ∧
  (∀ o ∈ d.exposure.outstanding, ∃ e ∈ d.bus.buffer, e.origin = .exposure ∧ e.group = o.group) ∧
  (∀ e ∈ d.bus.buffer, ∀ f ∈ d.bus.buffer, e.unsentExposure = true → f.unsentExposure = true → e.group = f.group) ∧
  d.bus.buffer.countP WriteEntry.unsentExposure ≠ 1 ∧
  (∀ e ∈ d.bus.buffer, e.origin = .exposure → e.sent = true → d.bus.buffer.head?.map WriteEntry.group = some e.group) ∧
  (∀ e ∈ d.bus.buffer, ∀ f ∈ d.bus.buffer, e.group = f.group → e.origin = f.origin ∧ e.sent = f.sent) ∧
  (∀ a b c, [a, b, c].Sublist d.bus.buffer → a.group = c.group → b.group = a.group) ∧
  (d.bus.finishing = true → ∀ o ∈ d.exposure.outstanding, d.bus.buffer.head?.map WriteEntry.group ≠ some o.group)

/-- A link that is not UP has no reply and no notice waiting and its overrun flag clear (R187, R192, R194). -/
def State.LinksLawful (s : State) : Prop :=
  ∀ l, (s.link l).state ≠ .up → (s.link l).replies = [] ∧ (s.link l).notices = [] ∧ (s.link l).overrun = false

/-- The output timing keeps pace (R130): the next line period to start is the first one whose tick has not passed. -/
def Timing.Lawful (t : Timing) : Prop :=
  t.nextPeriod ≤ 1300 ∧ t.elapsed < frameTicks t.cycle ∧
  t.elapsed ≤ t.nextPeriod * frameTicks t.cycle / 1300 ∧
  (0 < t.nextPeriod → (t.nextPeriod - 1) * frameTicks t.cycle / 1300 ≤ t.elapsed)

/-- The counts of a side stay within the limits at which the chapters let them saturate (R5, R7, R30, R48, R123, R137, R138, R148). -/
def SideState.CountsLawful (d : SideState) : Prop :=
  d.port.badCount ≤ 255 ∧ d.port.goodCount ≤ 255 ∧ d.exposure.mismatchCount ≤ 255 ∧
  (-256 ≤ d.exposure.trim ∧ d.exposure.trim ≤ 256) ∧ d.store.cleanCount ≤ 60 ∧
  d.comp.repeatCount ≤ 255 ∧ d.comp.startCount ≤ 600 ∧ d.comp.silence ≤ 255 ∧ d.comp.lagStrikes ≤ 2 ∧ d.comp.goodChecks ≤ 2

/-- The ranges of the part's own state: the articulation angle, the LEFT share and the occurrence counts (R99, R166, R176). -/
def State.PartRangesLawful (s : State) : Prop :=
  (-900 ≤ s.artic.angle ∧ s.artic.angle ≤ 900) ∧
  (s.tableStore.leftShare % 256 = 0 ∧ s.tableStore.leftShare ≤ 4096) ∧
  ∀ i : RecordId, (s.faults.get i).count ≤ 255

/-- The records that a side's exposure unit and bus master hold, and those of its frame history and its frame in flight. -/
def SideState.heldRecords (d : SideState) : List ExpRecord :=
  d.exposure.inForce.toList ++ d.exposure.pendingQueue.map PendingEntry.record ++
    d.exposure.outstanding.map OutstandingItem.record ++ d.history.map FrameRecord.exposure ++
    (d.dev.inputs.map FrameInputs.exposure).toList

/-- Every exposure record held has E = L(I) + a + d, with a in whole codes of 32 steps (R27). -/
def SideState.RecordsLawful (d : SideState) : Prop :=
  ∀ r ∈ d.heldRecords, r.total = logLevel r.integ + r.analog + r.digital ∧ 32 ∣ r.analog

/-- The level of a zone is 0..15 and its hold count 0..255 (R79, R86). -/
def Glare.Lawful (g : Glare) : Prop := ∀ z ∈ g.zones, z.level ≤ 15 ∧ z.hold ≤ 255

/-- The pending exposure queue stands in strictly increasing order of target, and every target is 1 to 3 frames later than the newest frame
start that the port has seen (R29, R40, R41). -/
def SideState.PendingLawful (d : SideState) : Prop :=
  d.exposure.pendingQueue.Pairwise (fun p q => later q.target p.target = true) ∧
  ∀ q ∈ d.exposure.pendingQueue, ∃ f, d.port.fcur = some f ∧ 1 ≤ (q.target - f).toNat ∧ (q.target - f).toNat ≤ 3

/-- The words meet every rule of the table's kind (R43, R97, R160). -/
def TableId.Passes (tb : TableId) (ws : List Word) : Prop := ∀ q ∈ tb.kind.rules ws, q.2

/-- The words that a bank of a table holds, in index order (R154, R155). -/
def State.bankWords (s : State) (x : Side) (tb : TableId) (p : PhysBank) : List Word :=
  (List.range tb.words).map (fun j => dataOf 16 (Mem.read tableDefault s.tableStore.mem (tableAddr x tb p j)))

/-- The laws of the table store: its words are stored without error, since an injection disturbs only what is read (R126, R172); and the
working copies, the active banks and the shadows that a pending commit names hold words that meet every rule of their tables (R53,
R159 to R161, R163). -/
def State.TablesLawful (s : State) : Prop :=
  (∀ a, a < 10240 → checkWord 5 (Mem.read tableDefault s.tableStore.mem a) = .clean) ∧
  ∀ (x : Side) (tb : TableId) (c : TableCtl), c = (s.side x).tables.ctl.get tb →
    tb.Passes ((s.copies x).get tb) ∧ tb.Passes (s.bankWords x tb c.active) ∧
    (∀ k, (s.side x).tables.commit = some k → k.tables.getLsbD tb.num = true → tb.Passes (s.bankWords x tb c.active.other))

/-- An entry or a site stands on the sensor (R166). -/
def OnSensor (row col : Nat) : Prop := row ≤ 2559 ∧ col ≤ 1919

/-- The laws of the defect pool (R56, R57, R166, R167): the LEFT share is at most 4096; each side's list is stored without error, in strict
(row, column) order, of sites on the sensor with a class, and neither it nor what its pending edits will make of it exceeds the side's
share. -/
def State.PoolLawful (s : State) : Prop :=
  s.tableStore.leftShare ≤ 4096 ∧
  ∀ x : Side, (∀ d ∈ (s.side x).dev.edits, match d with
      | .add row col cls => OnSensor row col ∧ cls ≠ 3
      | .remove row col => OnSensor row col) ∧
    ∃ es, s.HoldsList x es ∧ es.Pairwise (fun a b => a.row < b.row ∨ (a.row = b.row ∧ a.col < b.col)) ∧
      (∀ e ∈ es, OnSensor e.row e.col ∧ e.cls ≠ 3) ∧ es.length ≤ s.shareOf x ∧
      (applyEdits es (s.side x).dev.edits).length ≤ s.shareOf x

end Machine

end Sys2Proof
end

