-- ==== Sys2Proof/Certificates/Slice0/Obligations.lean ====
section
/-! DEFINITION. The statements for the provers: what the commands and the part do, rule by rule. -/

open Sys2Proof Sys2Proof.Machine

/-! ## The step and the reset -/

/-- A step takes the command at the front of the queue: it is exec of that command on the state with the rest of the queue. -/
def Obligations.StepTakesTheFrontCommand : Prop :=
  ∀ (c : Instr) (s : State) (rest : List Instr),
    step { s with pending := c :: rest } = exec c { s with pending := rest }

/-- On an empty queue (the model's choice, log entry 10): nothing happens while the reset input is asserted; when no expiry and no event of
the output timing is due, the tick counter and the output timing go on by 1; when some are due, exactly those are queued, in some order
(log entry 2), line period 0 after them, and the tick stands. Due are the loss expiry of R9, the response timer expiry of R19, the
articulation timer expiry of R101, and by R130 line period k from floor(k × D / 1300) ticks after an output frame start of D ticks on, with
the output frame starts at k = 0; the period queued is then behind. -/
def Obligations.EmptyQueueCountsATickOrQueuesWhatIsDue : Prop :=
  (∀ s : State, s.pending = [] →
    (s.inReset = true → step s = .next s) ∧
    (s.inReset = false → s.dueExpiries ++ s.dueTiming.1 = [] →
      step s = .next { s with
        tick := s.tick + 1,
        timing := if s.timing.elapsed + 1 < (if s.timing.cycle = 1 then 1666 else 1667) then
            { s.timing with elapsed := s.timing.elapsed + 1 }
          else { cycle := s.timing.cycle + 1, elapsed := 0, nextPeriod := 0 } }) ∧
    (s.inReset = false → s.dueExpiries ++ s.dueTiming.1 ≠ [] →
      ∃ t first, step s = .next t ∧ t.tick = s.tick ∧
        t.pending = first ++ s.dueTiming.2 ∧ first.Perm (s.dueExpiries ++ s.dueTiming.1) ∧
        t.timing = (if s.dueTiming.1 = [] then s.timing else { s.timing with nextPeriod := s.timing.nextPeriod + 1 }) ∧
        { t with pending := s.pending, ties := s.ties, timing := s.timing } = s)) ∧
  -- what is due
  ∀ s : State, s.dueExpiries.Nodup ∧
    (∀ i, i ∈ s.dueExpiries ↔
      (i = .articulationTimerExpiry ∧ s.artic.stale = false ∧ 50000 ≤ (s.tick - s.artic.tick).toNat) ∨
      (∃ x, i = .lossExpiry x ∧ (s.side x).port.state = .running ∧
        ((s.copies x).sensor.getD 9 0).toNat ≤ (s.tick - (s.side x).port.lastStart).toNat) ∨
      ∃ x, i = .responseTimerExpiry x ∧ (s.side x).bus.state = .sending ∧ 20 ≤ (s.tick - (s.side x).bus.timerStart).toNat) ∧
    ∀ (d k : Nat) (due : Prop), d = (if s.timing.cycle = 1 then 1666 else 1667) → k = s.timing.nextPeriod →
      (due ↔ k < 1300 ∧ k * d / 1300 ≤ s.timing.elapsed) →
      (¬ due → s.dueTiming = ([], [])) ∧
      (due → k = 0 → s.dueTiming = ([.outputFrameStart .left, .outputFrameStart .right], [.linePeriodStart 0])) ∧
      (due → k ≠ 0 → ∀ n : Fin 1300, n.val = k → s.dueTiming = ([.linePeriodStart n], []))

/-- RESET_INPUT_ASSERTED cuts off what the part does at its boundary, a transaction on a sensor bus and the forward traffic, and leaves the
rest as it stands until the end of the reset (that the blocks keep their state until then is log entry 13). While the input is asserted the
part takes no event: every command but the two of the reset changes nothing (R209). -/
def Obligations.ResetInputCutsOffAndHoldsOffEveryEvent : Prop :=
  (∀ (i : Instr) (s : State), s.inReset = true → i ≠ .powerOnReset → i ≠ .resetInputAsserted → exec i s = .next s) ∧
  (∀ s : State, ∃ t, exec .resetInputAsserted s = .next t ∧ t.inReset = true ∧
     (∀ x, t.side x =
       { s.side x with bus := { (s.side x).bus with state := .idle, attempts := 0, transaction := none, finishing := false } }) ∧
     (∀ l, t.link l = { s.link l with forward := none }) ∧
     { t with inReset := s.inReset, sides := s.sides, links := s.links } = s)

/-- POWER_ON_RESET from any state: tick 0, the cycle of output frames at its beginning, both links DOWN with empty queues, every fault
record CLEAR, every table word the ROM default with correct check bits, both logs empty, both injections disarmed and the locks clear; the
DRAM keeps its contents (R107, R116, R130, R154, R155, R189, R193, R209). Two clauses are the model's choice: the commands that wait go on
waiting (log entry 31), and the reset is taken whether or not its input was asserted (log entry 13). -/
def Obligations.PowerOnResetRestoresThePowerOnValues : Prop :=
  ∀ s : State, ∃ t, exec .powerOnReset s = .next t ∧
    t.inReset = false ∧ t.tick = 0 ∧ t.timing = { cycle := 0, elapsed := 0, nextPeriod := 0 } ∧
    t.artic = { angle := 0, tick := 0, stale := false } ∧
    (∀ x, t.side x = SideState.reset) ∧
    (∀ l, t.link l =
      { state := .down, beenUp := false, linkCond := false, replies := [], overrun := false, mask := 0x07FF, notices := [],
        forward := none }) ∧
    (∀ i, t.faults.get i = { state := .clear, count := 0, firstActive := none, lastChange := none, detail := 0 }) ∧
    (∀ x tb p j, j < tb.words →
      Mem.read tableDefault t.tableStore.mem (tableAddr x tb p j) = encodeWord 22 ((romTable x tb).getD j 0)) ∧
    t.tableStore.log = none ∧ t.tableStore.injection = none ∧ t.tableStore.leftShare = 2048 ∧
    t.frameStore.log = none ∧ t.frameStore.injection = none ∧ t.frameStore.mem = s.frameStore.mem ∧
    t.corrCond = false ∧ t.locks = { layout := false, sensor := false, pan := false, defects := false } ∧
    t.pending = s.pending

/-- The power-on values of the blocks of a side (R14, R22, R50, R78, R93, R107, R116, R123, R150, R154, R174), and the state after reset
meets the laws that every step keeps. -/
def Obligations.ResetHoldsPowerOnValuesAndMeetsTheLaws : Prop :=
  ((SideState.reset.port.state = .searching ∧ SideState.reset.port.phase = .closed ∧ SideState.reset.port.fcur = none ∧
     SideState.reset.port.lastStart = 0 ∧ SideState.reset.port.tempClass = .normal ∧ SideState.reset.port.lastTemp = none ∧
     SideState.reset.history = []) ∧
   (SideState.reset.bus.buffer = [] ∧ SideState.reset.bus.state = .idle ∧ SideState.reset.bus.attempts = 0 ∧
     SideState.reset.bus.groupCounter = 0) ∧
   (SideState.reset.exposure.inForce = none ∧ SideState.reset.exposure.pendingQueue = [] ∧
     SideState.reset.exposure.outstanding = [] ∧ SideState.reset.exposure.mode = .auto ∧ SideState.reset.exposure.bank = 0 ∧
     SideState.reset.exposure.scheduled = none ∧ SideState.reset.exposure.trim = 0) ∧
   (SideState.reset.dev.frame = none ∧ SideState.reset.dev.copies = none ∧ SideState.reset.dev.edits = []) ∧
   (SideState.reset.glare.zones.length = 192 ∧ (∀ z ∈ SideState.reset.glare.zones, z.level = 0 ∧ z.hold = 0) ∧
     SideState.reset.glare.handed = none) ∧
   (SideState.reset.framing.aimDx = 0 ∧ SideState.reset.framing.aimDy = 0 ∧ SideState.reset.framing.panTarget = 0 ∧
     SideState.reset.framing.panCur = 0 ∧ SideState.reset.framing.windows = none) ∧
   (∀ n, (SideState.reset.store.slots.get n).state = .free ∧ (SideState.reset.store.slots.get n).damaged = false) ∧
   (SideState.reset.comp.view = .starting ∧ SideState.reset.comp.mode = .live ∧ SideState.reset.comp.requested = .live ∧
     SideState.reset.comp.frameCount = 0 ∧ SideState.reset.comp.content = none ∧ SideState.reset.comp.status = none) ∧
   (∀ tb, SideState.reset.tables.ctl.get tb = { active := .bank0, bad0 := none, bad1 := none, shadow := .stale }) ∧
   (SideState.reset.tables.commit = none ∧ SideState.reset.tables.defectCount = 0 ∧ SideState.reset.tables.defectLoss = false)) ∧
  (State.reset.MemoriesCanonical ∧ State.reset.QueuesBounded ∧ State.reset.ReservationsLawful ∧ State.reset.PartRangesLawful ∧
   State.reset.timing.Lawful ∧ State.reset.LinksLawful ∧
   State.reset.NumbersLawful ∧ State.reset.TablesLawful ∧ State.reset.PoolLawful ∧
   (∀ x, (State.reset.side x).PendingLawful ∧ (State.reset.side x).RecordsLawful ∧ (State.reset.side x).glare.Lawful ∧
     (State.reset.side x).GroupsLawful) ∧
   ∀ x, (State.reset.side x).SlotsLawful ∧ (State.reset.side x).comp.ViewLawful ∧ (State.reset.side x).bus.Lawful ∧
     (State.reset.side x).CountsLawful)

/-! ## Laws that every step keeps -/

/-- Every step keeps both memories in their canonical form: addresses strictly rising, no cell equal to what an unlisted address reads
as. -/
def Obligations.EveryStepKeepsTheMemoriesCanonical : Prop :=
  ∀ s t : State, s.MemoriesCanonical → step s = .next t → t.MemoriesCanonical

/-- Every step keeps the bounds of the queues: at most 8 replies and no notice twice on a link, at most 16 writes, 4 pending exposures, 8
frame records and 64 pending defect edits on a side (R6, R15, R41, R56, R184, R196). While the tables are lawful, which every step keeps
too, it keeps each pending exposure queue in strictly increasing order of target, with every target 1 to 3 frames later than the newest
frame start the port has seen (R29, R40, R41). It keeps both queues of a link that is not UP empty, and its overrun flag clear (R187, R192,
R194). -/
def Obligations.EveryStepKeepsTheQueueBounds : Prop :=
  (∀ s t : State, s.QueuesBounded → step s = .next t → t.QueuesBounded) ∧
  (∀ s t : State, s.TablesLawful → (∀ x, (s.side x).PendingLawful) → step s = .next t → ∀ x, (t.side x).PendingLawful) ∧
  (∀ s t : State, s.LinksLawful → step s = .next t → t.LinksLawful)

/-- Every step keeps the laws of the slots: at no time are two slots of a side FILLING, two READY or two SHOWING, and a FILLING slot stands
only while the port receives active lines (R52, R109 to R116). -/
def Obligations.EveryStepKeepsTheSlotLaws : Prop :=
  ∀ s t : State, (∀ x, (s.side x).SlotsLawful) → step s = .next t → ∀ x, (t.side x).SlotsLawful

/-- Every step keeps the laws of the view: VIEW_STALE's flag is set exactly in STALE and VIEW_LOST's exactly in LOST and RECOVERING, and a
picture is the content only in LIVE_OK or STALE (R135, R143, R151). -/
def Obligations.EveryStepKeepsTheViewLaws : Prop :=
  ∀ s t : State, (∀ x, (s.side x).comp.ViewLawful) → step s = .next t → ∀ x, (t.side x).comp.ViewLawful

/-- Every step keeps reservations and pending commits matched: a reply queue holds one reservation for a side's pending commit exactly
while the commit holds its reservation on that link (R161, R162, R192, R196). -/
def Obligations.EveryStepKeepsReservationsMatched : Prop :=
  ∀ s t : State, s.ReservationsLawful → step s = .next t → t.ReservationsLawful

/-- Every step keeps the laws of the bus masters: an open attempt stands on a sent head entry with 1 to 3 attempts, and IDLE has no
transaction (R15, R16, R18, R19, R22). It keeps the numbers of the open transactions below that of the next one, so that a response to a
closed transaction answers no later one (R19; the numbers are the model's, log entry 38). It keeps at most one unsent EXPOSURE group in a
buffer and at most 2 items in an outstanding list, each of a group that is in the buffer (R16, R39), while the group number that is next to
be given belongs to no entry in the buffer (groups are told apart by their 8-bit number, log entry 28). -/
def Obligations.EveryStepKeepsTheBusLaws : Prop :=
  (∀ s t : State, (∀ x, (s.side x).bus.Lawful) → step s = .next t → ∀ x, (t.side x).bus.Lawful) ∧
  (∀ s t : State, s.NumbersLawful → step s = .next t → t.NumbersLawful) ∧
  (∀ s t : State,
    (∀ x, (s.side x).bus.Lawful ∧ (s.side x).bus.buffer.length ≤ 16 ∧ (s.side x).GroupsLawful ∧
      ∀ e ∈ (s.side x).bus.buffer, e.group ≠ (s.side x).bus.groupCounter) →
    step s = .next t → ∀ x, (t.side x).GroupsLawful)

/-- Every step keeps the output timing in pace: the next line period to start is the first whose tick, floor(k × D / 1300) after the output
frame start, has not passed (R130; that the time base runs on the empty queue is the model's choice, log entry 10). -/
def Obligations.EveryStepKeepsTheOutputTimingInPace : Prop :=
  ∀ s t : State, s.timing.Lawful → step s = .next t → t.timing.Lawful

/-- Every step keeps the counts within the limits at which they saturate, and the trim, the articulation angle and the LEFT share in their
ranges (R5, R7, R30, R48, R99, R123, R137, R148, R166, R176). It keeps E = L(I) + a + d in every exposure record held (R27); the stored
words of the table store without error, and the working copies, the active banks and the shadows that a pending commit names within the
rules of their tables (R53, R159, R160); the glare levels at 0..15 and the hold counts at 0..255 (R86); and each defect list in strict site
order and within its side's share, also with its pending edits applied (R166, R167). That words stored without error stay so rests on log
entry 33: the model lets stored bits change by writes alone. -/
def Obligations.EveryStepKeepsTheRanges : Prop :=
  (∀ s t : State, ((∀ x, (s.side x).CountsLawful) ∧ s.PartRangesLawful) → step s = .next t →
    (∀ x, (t.side x).CountsLawful) ∧ t.PartRangesLawful) ∧
  (∀ s t : State, (∀ x, (s.side x).RecordsLawful) → step s = .next t → ∀ x, (t.side x).RecordsLawful) ∧
  (∀ s t : State, s.TablesLawful → step s = .next t → t.TablesLawful) ∧
  (∀ s t : State, s.TablesLawful → (∀ x, (s.side x).glare.Lawful) → step s = .next t → ∀ x, (t.side x).glare.Lawful) ∧
  (∀ s t : State, s.TablesLawful → s.PoolLawful → step s = .next t → t.PoolLawful)

/-! ## Sensor port -/

/-- FRAME_BEGIN_MARKER opens a frame in STATUS with line count 0. In CLOSED it does nothing else; with a frame open, that frame is
malformed first, at its first missing status line or its first missing active line, and a frame in LINES is discarded, its slot freed with
outcome DISCARDED; a third malformed frame in a row, or one taken while frame_cond is set, sets SENSOR_FRAME with the index as detail; a
frame in STATUS changes nothing of the side but the port (R2, R5, R10, R61, R112). The state, F_cur and the other blocks of the side
stay. -/
def Obligations.FrameBeginMarkerOpensAFrame : Prop :=
  ∀ (x : Side) (s : State), s.inReset = false → ∃ t, exec (.frameBeginMarker x) s = .next t ∧
    (t.side x).port.phase = .status ∧ (t.side x).port.lineCount = 0 ∧ (t.side x).port.statusLines = [] ∧
    (t.side x).port.state = (s.side x).port.state ∧ (t.side x).port.fcur = (s.side x).port.fcur ∧
    ((s.side x).port.phase = .closed →
      t = s.onSide x (fun d => { d with port := { d.port with phase := .status, lineCount := 0, statusLines := [] } })) ∧
    ((s.side x).port.phase ≠ .closed →
      (t.side x).port.badCount = min ((s.side x).port.badCount + 1) 255 ∧ (t.side x).port.goodCount = 0 ∧
      (t.side x).port.malformIndex =
        some (if (s.side x).port.phase = .status then (s.side x).port.lineCount else (s.side x).port.lineCount + 2) ∧
      ((3 ≤ (t.side x).port.badCount ∨ (s.side x).port.frameCond = true) → (t.side x).port.frameCond = true ∧
        (t.faults.get (.side .sensorFrame x)).state ≠ .clear ∧
        some (t.faults.get (.side .sensorFrame x)).detail = (t.side x).port.malformIndex.map (BitVec.ofNat 16)) ∧
      ((t.side x).port.badCount < 3 → (s.side x).port.frameCond = false →
        t.faults = s.faults ∧ (t.side x).port.frameCond = false)) ∧
    ((s.side x).port.phase = .status → { t.side x with port := (s.side x).port } = s.side x) ∧
    ((s.side x).port.phase = .lines → (t.side x).dev.frame = none ∧ (t.side x).dev.zones = zeroZones) ∧
    ((s.side x).port.phase = .lines → (s.side x).SlotsLawful → (s.side x).DiscardsFilling (t.side x)) ∧
    { t.side x with port := (s.side x).port, history := (s.side x).history, dev := (s.side x).dev, store := (s.side x).store } =
      s.side x ∧
    s.EventOf t x [.side .sensorFrame x]

/-- A good LINE in LINES is the next active line: the line count goes up by 1. The line is held after black level. Each cell row that it
completes, formed from the held rows with the defects replaced, is added to the zone accumulators, and its output rows are written into the
slot, each word with check bits: the marker's colour, or the channels of the source cell through gain, tone and output. No other word of
the DRAM is written. The other clauses say which rows are complete, and what replacement, demosaic, gain, tone, panes and markers give (R3,
R59, R62 to R76, R117, R119). Two points are readings of the model: a cell row with a sample replaced from a later row waits for that row
(log entry 29), and only rows that are held can be read (log entry 24). -/
def Obligations.ActiveLineWritesOnlyTheRowsItCompletes : Prop :=
  (∀ (x : Side) (ws : List Sample) (s : State), s.inReset = false → (s.side x).port.phase = .lines → ws.length = 1920 →
    (s.side x).port.lineCount < 2560 → ∃ t, exec (.line x ws) s = .next t ∧
    (t.side x).port = { (s.side x).port with lineCount := (s.side x).port.lineCount + 1 } ∧
    { (t.side x).dev with zones := (s.side x).dev.zones, recent := (s.side x).dev.recent } = (s.side x).dev ∧
    { t.side x with port := (s.side x).port, dev := (s.side x).dev } = s.side x ∧
    t.side x.other = s.side x.other ∧
    (∀ a, (∀ r ∈ s.rowsCompleted x (s.side x).port.lineCount,
        a < frameAddr x r.1 r.2 0 ∨ frameAddr x r.1 r.2 0 + 270 ≤ a) →
      Mem.read frameDefault t.frameStore.mem a = Mem.read frameDefault s.frameStore.mem a) ∧
    { t.frameStore with mem := s.frameStore.mem, lastServed := s.frameStore.lastServed } = s.frameStore ∧
    { t with sides := s.sides, frameStore := s.frameStore } = s ∧
    -- what the line does to the frame in flight
    ∀ (f : FrameNo) (inp : FrameInputs) (g : Geometry) (n theta : Nat) (cells : Nat → List Cell),
      (s.side x).dev.frame = some f → (s.side x).dev.inputs = some inp → g = (s.side x).dev.geometry.getD .live →
      n = (s.side x).port.lineCount →
      theta = min 4095 (max 1 (powSteps ((s.profileOf x inp.bank).tGlare + inp.exposure.total).toNat)) →
      (∀ cy, cells cy = cellRow inp.defects (t.side x).dev.recent n cy) →
      (t.side x).dev.recent =
        (ws.map (fun v => v.toNat - (s.sensorOf x).black inp.tempClass) :: (s.side x).dev.recent).take 4 ∧
      -- the accumulators (R65)
      (∀ i a part, (s.side x).dev.zones[i]? = some a →
        part = ((completedRows inp.defects n).filter (fun cy => decide (i / 12 = cy / 80))).map
          (fun cy => ((cells cy).drop (80 * (i % 12))).take 80) →
        (t.side x).dev.zones[i]? = some
          { green := a.green + (part.map (fun cs => (cs.map Cell.g).sum)).sum,
            bright := a.bright + (part.map (fun cs => cs.countP (fun c => decide (theta ≤ c.g)))).sum }) ∧
      -- the words of the output rows (R71, R73, R76)
      ∀ m cy yp w p ms, inp.slot = some m → cy ∈ completedRows inp.defects n → (p, ms) ∈ framePanes g (s.layoutOf x) inp →
        yp < p.height → p.window.y + yp * p.vstep / 1024 = cy → w < 270 →
        ∃ v : BitVec 64, Mem.read frameDefault t.frameStore.mem (frameAddr x m (p.firstRow + yp) w) = encodeWord 72 v ∧
          ∀ (j cx : Nat) (cell : Cell) (curve : List Nat) (z : Int), j < 8 →
            cx = p.window.x + (8 * w + j) / 3 * p.hstep / 1024 → cell = (cells cy).getD cx { r := 0, g := 0, b := 0 } →
            curve = (match g with
              | .service => (List.range 65).map (fun k => min 1023 (16 * k))
              | .live => ((s.copies x).get (TableId.tone (s.profileOf x inp.bank).toneSlot)).map BitVec.toNat) →
            z = (match g with
              | .service => 0
              | .live => inp.attenuations.getD (12 * (cy / 80) + cx / 80) 0) →
            v.extractLsb' (8 * j) 8 = (match p.rowColour ms yp, (8 * w + j) % 3 with
              | some c, 0 => c.r
              | some c, 1 => c.g
              | some c, _ => c.b
              | none, 0 => developChannel curve inp.exposure.digital (s.sensorOf x).wbR z cell.r
              | none, 1 => developChannel curve inp.exposure.digital (s.sensorOf x).wbG z cell.g
              | none, _ => developChannel curve inp.exposure.digital (s.sensorOf x).wbB z cell.b)) ∧
  -- which cell rows a line completes (R59, R63, R64)
  (∀ (defects : List (Nat × Nat)) (n cy : Nat), 1 ≤ cy → (cy ∈ completedRows defects n ↔ n = 2 * cy + 1)) ∧
  (∀ (defects : List (Nat × Nat)) (n : Nat), 0 ∈ completedRows defects n ↔
    (ReachesBeyond defects 1 ∧ n = 3) ∨ (¬ ReachesBeyond defects 1 ∧ ReachesBeyond defects 0 ∧ n = 2) ∨
    (¬ ReachesBeyond defects 1 ∧ ¬ ReachesBeyond defects 0 ∧ n = 1)) ∧
  -- the cells (R63, R64)
  (∀ (defects : List (Nat × Nat)) (recent : List (List Nat)) (n cy c : Nat) (at' : Nat → Nat → Nat),
    at' = replacedSample defects (fun r => recent.getD (n - r) []) →
    (recent.getD (n - 2 * cy) []).length = 1920 → (recent.getD (n - (2 * cy + 1)) []).length = 1920 → c < 960 →
    (cellRow defects recent n cy)[c]? = some
      { r := at' (2 * cy) (2 * c), g := (at' (2 * cy) (2 * c + 1) + at' (2 * cy + 1) (2 * c)) / 2,
        b := at' (2 * cy + 1) (2 * c + 1) }) ∧
  -- gain, tone and output (R66 to R69)
  (∀ (curve : List Nat) (d s f v k r : Nat) (wb z g q : Int), g = max (-2048) (min (d + wb + z) 1024) → g = 256 * q + f → f < 256 →
    (0 ≤ q → v = min 4095 ((s * mt f * 2 ^ q.toNat + 16384) / 32768)) →
    (q < 0 → v = min 4095 ((s * mt f + 2 ^ (14 + (-q).toNat)) / 2 ^ (15 + (-q).toNat))) → v = 64 * k + r → r < 64 →
    developChannel curve d wb z s =
      BitVec.ofNat 8 (min 255 ((curve.getD k 0 + ((curve.getD (k + 1) 0 - curve.getD k 0) * r + 32) / 64 + 2) / 4))) ∧
  -- panes and markers (R70, R72 to R74)
  (∀ (l : Layout) (inp : FrameInputs),
    framePanes .service l inp =
      [({ firstRow := 0, height := 1280, window := { x := 0, y := 0, w := 960, h := 1280 }, hstep := 1365, vstep := 1024 }, [])] ∧
    framePanes .live l inp =
      [({ firstRow := 0, height := l.mainH, window := inp.main, hstep := 1024 * inp.main.w / 720,
          vstep := 1024 * inp.main.h / l.mainH }, l.markers.filter (fun m => !m.wide)),
       ({ firstRow := l.mainH, height := 1280 - l.mainH, window := inp.wide, hstep := 1024 * inp.wide.w / 720,
          vstep := 1024 * inp.wide.h / (1280 - l.mainH) }, l.markers.filter (fun m => m.wide))]) ∧
  (∀ (p : Pane) (m : Marker) (yp : Nat), p.covered m yp = true ↔
    p.window.y ≤ m.row ∧ m.row < p.window.y + p.window.h ∧ ∃ y0, y0 < p.height ∧ m.row ≤ p.window.y + y0 * p.vstep / 1024 ∧
      (∀ y, y < y0 → p.window.y + y * p.vstep / 1024 < m.row) ∧ y0 ≤ yp ∧ yp < y0 + m.thickness) ∧
  (∀ (p : Pane) (ms : List Marker) (yp : Nat),
    ((∀ m ∈ ms, p.covered m yp = false) → p.rowColour ms yp = none) ∧
    ∀ pre m post c, ms = pre ++ m :: post → p.covered m yp = true → (∀ o ∈ post, p.covered o yp = false) →
      ([{ r := 255, g := 255, b := 255 }, { r := 255, g := 255, b := 0 }, { r := 255, g := 0, b := 0 },
        { r := 0, g := 255, b := 0 }] : List Pixel)[m.colour]? = some c → p.rowColour ms yp = some c)

/-- The second good status line is the frame start. The port is RUNNING in LINES and takes F_cur, the temperature with its class and the
tick; SENSOR_HOT follows its limits; a record with its gap flag and outcome PENDING stands newest in the history. The pending commit
inverts the role flags of exactly the tables it names, leaves their new shadows STALE and fills the reservation with its DONE reply. The
defect list is read, a lost entry leaves it with TABLE_POISONED set, the pending edits are applied, and the active set is taken from the
result. The working copy of a table holds the words of its active bank after the swap where they read without error, and the ROM default
where that bank is poisoned or becomes so by the read, which sets TABLE_POISONED. With no uncorrectable read the swap ends TABLE_POISONED
on a healed side, and a bank still bad sets it. (For these reads no COUNT trigger is armed.) The lowest FREE slot is FILLING for the frame;
the pan step, the windows and the handed attenuations are taken from the new working copies; the exposure unit switches the bank, retires,
and matches, rebuilds or seeds, with EXPOSURE_MISMATCH. The developer is DEVELOPING with accumulators at zero. The other side and the DRAM
stay (R3, R6, R8, R12, R13, R29 to R33, R45, R53, R57, R58, R77, R86, R100, R102, R103, R110, R157, R161 to R164, R169, R212). That a
target which R29 calls both due and too far ahead is retired as due is the model's reading (log entry 20). -/
def Obligations.SecondStatusLineTakesTheFrameStart : Prop :=
  ∀ (x : Side) (ws l0 : List Sample) (s : State), s.inReset = false → (s.side x).port.phase = .status →
    (s.side x).port.lineCount = 1 → (s.side x).port.statusLines = [l0] → ws.length = 1920 →
    ∃ t r, exec (.line x ws) s = .next t ∧
      (t.side x).port.state = .running ∧ (t.side x).port.phase = .lines ∧ (t.side x).port.lineCount = 0 ∧
      (t.side x).port.fcur = some (((l0.getD 1 0).extractLsb' 0 4) ++ (l0.getD 0 0)) ∧
      (t.side x).port.lastStart = s.tick ∧
      (t.side x).port.lastTemp = some (max (-40) (min (l0.getD 4 0).toInt 150)) ∧
      (t.side x).port.tempClass = nextClass (s.side x).port.tempClass (max (-40) (min (l0.getD 4 0).toInt 150)) ∧
      (t.side x).history = r :: (s.side x).history.take 7 ∧
      some r.number = (t.side x).port.fcur ∧ r.arrival = s.tick ∧ r.outcome = .pending ∧ r.metered = none ∧ r.glare = none ∧
      r.gap = (match (s.side x).port.fcur with
        | some f => decide (r.number ≠ f + 1)
        | none => false) ∧
      some r.temp = (t.side x).port.lastTemp ∧ r.cls = (t.side x).port.tempClass ∧
      some r.exposure = (t.side x).exposure.inForce ∧ r.bank = (t.side x).exposure.bank ∧
      (t.side x).tables.commit = none ∧ (t.side x).dev.edits = [] ∧
      (t.side x).dev.frame = (t.side x).port.fcur ∧ (t.side x).dev.copies.isSome = true ∧ (t.side x).dev.zones = zeroZones ∧
      t.side x.other = s.side x.other ∧ t.frameStore = s.frameStore ∧
      t.tick = s.tick ∧ t.artic = s.artic ∧ t.locks = s.locks ∧
      -- SENSOR_HOT (R13)
      ((105 ≤ r.temp ∧ (s.side x).port.hotCond = false) → (t.side x).port.hotCond = true ∧
        (t.faults.get (.side .sensorHot x)).state ≠ .clear ∧
        (t.faults.get (.side .sensorHot x)).detail = BitVec.ofInt 16 r.temp) ∧
      ((r.temp < 102 ∧ (s.side x).port.hotCond = true) → (t.side x).port.hotCond = false ∧
        (t.faults.get (.side .sensorHot x)).state = .clear) ∧
      (¬ (105 ≤ r.temp ∧ (s.side x).port.hotCond = false) → ¬ (r.temp < 102 ∧ (s.side x).port.hotCond = true) →
        (t.side x).port.hotCond = (s.side x).port.hotCond ∧
        t.faults.get (.side .sensorHot x) = s.faults.get (.side .sensorHot x)) ∧
      -- the swap of the pending commit and its reply (R161, R162)
      (∀ tb, ((t.side x).tables.ctl.get tb).active =
          (if ((s.side x).tables.commit.map (fun c => c.tables.getLsbD tb.num)) = some true
            then ((s.side x).tables.ctl.get tb).active.other else ((s.side x).tables.ctl.get tb).active) ∧
        ((t.side x).tables.ctl.get tb).shadow =
          (if ((s.side x).tables.commit.map (fun c => c.tables.getLsbD tb.num)) = some true then ShadowState.stale
            else ((s.side x).tables.ctl.get tb).shadow)) ∧
      (∀ l, ((s.side x).tables.commit.bind PendingCommit.link ≠ some l → (t.link l).replies = (s.link l).replies) ∧
        (∀ c, (s.side x).tables.commit = some c → c.link = some l →
          (t.link l).replies = (s.link l).replies.map (fun e => match e with
            | .ready q => .ready q
            | .reserved tag y =>
              if y = x then .ready { tag := tag, reason := none, data := [c.tables.setWidth 16] } else .reserved tag y))) ∧
      -- the pending edits and the active set (R57, R58, R169)
      (∀ es new : List DefectEntry, s.StoresList x es →
        new = applyEdits es (s.side x).dev.edits →
        (t.side x).tables.defectCount = new.length ∧
        (∀ i e, new[i]? = some e →
          Mem.read tableDefault t.tableStore.mem (poolAddr x s.tableStore.leftShare i) =
            encodeWord 22 (BitVec.ofNat 16 e.row) ∧
          Mem.read tableDefault t.tableStore.mem (poolAddr x s.tableStore.leftShare i + 1) =
            encodeWord 22 (BitVec.ofNat 16 (e.col % 2048 + 16384 * e.cls.toNat))) ∧
        (t.side x).dev.inputs.map FrameInputs.defects =
          some ((new.filter (fun e => decide (e.cls.toNat ≤ r.cls.code))).map (fun e => (e.row, e.col)))) ∧
      (s.NoCountTrigger → s.TakesEdits t x) ∧
      (s.NoCountTrigger → (t.side x).dev.inputs.map FrameInputs.defects =
        some (((applyEdits (s.entriesRead x) (s.side x).dev.edits).filter (fun e => decide (e.cls.toNat ≤ r.cls.code))).map
          (fun e => (e.row, e.col)))) ∧
      -- the working copies (R53, R157, R163, R164)
      (∀ (tb : TableId) (p : PhysBank), p = ((t.side x).tables.ctl.get tb).active →
        (((s.side x).tables.ctl.get tb).bad p ≠ none → (t.copies x).get tb = romTable x tb) ∧
        (s.NoCountTrigger →
          (((s.side x).tables.ctl.get tb).bad p = none →
            ∀ ws : List Word, ws.length = tb.words →
              (∀ j w, ws[j]? = some w → s.dataAt (tableAddr x tb p j) = some w) →
              (t.copies x).get tb = ws ∧ ((t.side x).tables.ctl.get tb).bad p = none) ∧
          (∀ j, s.BankFails x tb p j → (t.copies x).get tb = romTable x tb ∧
            ((t.side x).tables.ctl.get tb).bad p = some j ∧ (t.side x).tables.poisonCond = true ∧
            (t.faults.get (.side .tablePoisoned x)).state ≠ .clear))) ∧
      -- TABLE_POISONED where no read of the run is uncorrectable (R162, R164)
      (s.NoCountTrigger → (s.entriesRead x).length = (s.side x).tables.defectCount →
        (∀ tb j, ¬ s.BankFails x tb ((t.side x).tables.ctl.get tb).active j) →
        ((s.side x).tables.commit ≠ none → (s.side x).tables.poisonCond = true → s.SwapEndsPoison t x) ∧
        ((s.side x).tables.commit = none → (s.side x).tables.poisonCond = true → s.KeepsPoison t x) ∧
        ((s.side x).tables.poisonCond = false → (t.side x).tables.Healed → s.KeepsPoison t x) ∧
        ((s.side x).tables.poisonCond = false → ¬ (t.side x).tables.Healed → (t.side x).tables.poisonCond = true ∧
          (t.faults.get (.side .tablePoisoned x)).state ≠ .clear ∧
          (∀ tb, (t.side x).tables.activeBad tb ≠ none → (∀ u, u.num < tb.num → (t.side x).tables.activeBad u = none) →
            (t.faults.get (.side .tablePoisoned x)).detail = BitVec.ofNat 16 tb.num) ∧
          ((∀ tb, (t.side x).tables.activeBad tb = none) → (t.faults.get (.side .tablePoisoned x)).detail = 13))) ∧
      -- the slot (R54, R55, R77, R110)
      (t.side x).dev.geometry = some (s.side x).comp.mode.geometry ∧
      (t.side x).dev.inputs.map FrameInputs.slot = some r.slot ∧
      (∀ n, r.slot = some n ↔ (((s.side x).store.slots.get n).state = .free ∧
        ∀ m, m.num < n.num → ((s.side x).store.slots.get m).state ≠ .free)) ∧
      (∀ n, (t.side x).store.slots.get n = if r.slot = some n then
          { state := .filling, damaged := false,
            content := some { geometry := (s.side x).comp.mode.geometry,
                              source := { frame := r.number, arrival := s.tick }, link := r.serial } }
        else (s.side x).store.slots.get n) ∧
      -- the framing unit and the glare unit (R86, R100, R102, R103)
      (s.side x).framing.StartsFrame (t.side x).framing x s.artic (t.layoutOf x) (t.copies x).pan ∧
      (t.side x).dev.inputs.map (fun i => (i.main, i.wide)) = (t.side x).framing.windows.map (fun w => (w.main, w.wide)) ∧
      (t.side x).glare = { (s.side x).glare with
        handed := some ((s.side x).glare.zones.map (fun z => ((t.copies x).glareAtt.getD z.level 0).toInt)) } ∧
      (t.side x).dev.inputs.map FrameInputs.attenuations = (t.side x).glare.handed ∧
      -- the exposure unit (R29 to R33, R45)
      (s.side x).exposure.StartsFrame (t.side x).exposure (t.profileOf x r.bank) (t.sensorOf x) r.number
        (l0.getD 2 0).toNat ((l0.getD 3 0).extractLsb' 0 5).toNat r.matched ∧
      (t.side x).dev.inputs.map (fun i => (i.exposure, i.bank, i.tempClass)) = some (r.exposure, r.bank, r.cls) ∧
      (r.matched = false → 3 ≤ (t.side x).exposure.mismatchCount →
        (t.faults.get (.side .exposureMismatch x)).state ≠ .clear ∧
        (t.faults.get (.side .exposureMismatch x)).detail = r.number) ∧
      ((s.side x).exposure.mismatchCond = true → (t.side x).exposure.mismatchCond = false →
        (t.faults.get (.side .exposureMismatch x)).state = .clear) ∧
      ((s.side x).exposure.mismatchCond = (t.side x).exposure.mismatchCond →
        (r.matched = true ∨ (t.side x).exposure.mismatchCount < 3) →
        t.faults.get (.side .exposureMismatch x) = s.faults.get (.side .exposureMismatch x))

/-- A line of the wrong length, a line too many and a frame-end marker before its place make the open frame malformed at its index: the
phase is CLOSED, the malformed count goes up by 1 and the good count is 0, three malformed frames in a row, and any one taken while
frame_cond is set, set SENSOR_FRAME with the index as detail, and a frame in LINES is discarded: its accumulators are zero, and its FILLING
slot is freed with outcome DISCARDED in its record. A frame in STATUS changes nothing but the port. In CLOSED both are ignored (R3, R4, R5,
R10, R61, R112). -/
def Obligations.MalformedFramesAreClosedAndCounted : Prop :=
  ∀ (x : Side) (i : Instr) (s : State), s.inReset = false →
    ((s.side x).port.phase = .closed → ∀ ws, exec (.line x ws) s = .next s ∧ exec (.frameEndMarker x) s = .next s) ∧
    ((((∃ ws, i = .line x ws ∧ ws.length ≠ 1920) ∨ i = .frameEndMarker x) ∧ (s.side x).port.phase = .status) ∨
      ((∃ ws, i = .line x ws ∧ (ws.length ≠ 1920 ∨ 2560 ≤ (s.side x).port.lineCount)) ∧ (s.side x).port.phase = .lines) ∨
      (i = .frameEndMarker x ∧ (s.side x).port.phase = .lines ∧ (s.side x).port.lineCount ≠ 2560) →
      ∃ t, exec i s = .next t ∧ (t.side x).port.phase = .closed ∧
        (t.side x).port.badCount = min ((s.side x).port.badCount + 1) 255 ∧ (t.side x).port.goodCount = 0 ∧
        (t.side x).port.malformIndex =
          some (if (s.side x).port.phase = .status then (s.side x).port.lineCount else (s.side x).port.lineCount + 2) ∧
        ((3 ≤ (t.side x).port.badCount ∨ (s.side x).port.frameCond = true) → (t.side x).port.frameCond = true ∧
          (t.faults.get (.side .sensorFrame x)).state ≠ .clear ∧
          some (t.faults.get (.side .sensorFrame x)).detail = (t.side x).port.malformIndex.map wordOf) ∧
        ((t.side x).port.badCount < 3 → (s.side x).port.frameCond = false →
          t.faults = s.faults ∧ (t.side x).port.frameCond = (s.side x).port.frameCond) ∧
        ((s.side x).port.phase = .lines → (t.side x).dev.frame = none ∧ (t.side x).dev.zones = zeroZones) ∧
        ((s.side x).port.phase = .lines → (s.side x).SlotsLawful → (s.side x).DiscardsFilling (t.side x)) ∧
        ((s.side x).port.phase = .status → { t.side x with port := (s.side x).port } = s.side x) ∧
        { t.side x with
          port := (s.side x).port, history := (s.side x).history, dev := (s.side x).dev, store := (s.side x).store } =
          s.side x ∧
        s.EventOf t x [.side .sensorFrame x])

/-- FRAME_END_MARKER after 2560 active lines is the good frame end: the phase is CLOSED, the good count goes up by 1, the malformed count
is 0, SENSOR_LOSS ends, SENSOR_FRAME ends at the third good frame in a row, the FILLING slot is READY and an older READY slot is FREE with
outcome SKIPPED, and the developer is IDLE with its accumulators at zero. With no metered zone the exposure unit and the bus hold;
otherwise the newest record takes the mean M and the scene level S, the ladder is evaluated, and the split of the requested exposure is
asked of the bus master where it differs from the expected E. The newest record takes the lit count and the suspended flag. The other side,
the DRAM, the articulation record and the locks stay; a word of the table store may be written back by the device-address read of an
attempt started here (R4, R7, R10, R11, R16, R18, R28, R34 to R39, R44, R45, R60, R90, R111). That the accumulators are zero from the good
frame end on is the model's choice (log entry 40). -/
def Obligations.GoodFrameEndMakesTheFrameReady : Prop :=
  ∀ (x : Side) (s : State), s.inReset = false → (s.side x).port.phase = .lines → (s.side x).port.lineCount = 2560 →
    (s.side x).SlotsLawful → (s.side x).dev.frame.isSome = true → (s.side x).dev.inputs.isSome = true →
    ∃ t, exec (.frameEndMarker x) s = .next t ∧
      (t.side x).port.phase = .closed ∧ (t.side x).port.badCount = 0 ∧
      (t.side x).port.goodCount = min ((s.side x).port.goodCount + 1) 255 ∧
      (t.side x).port.lossCond = false ∧
      ((s.side x).port.lossCond = true → (t.faults.get (.side .sensorLoss x)).state = .clear) ∧
      ((t.side x).port.goodCount = 3 → (t.side x).port.frameCond = false) ∧
      ((t.side x).port.goodCount = 3 → (s.side x).port.frameCond = true →
        (t.faults.get (.side .sensorFrame x)).state = .clear) ∧
      (∀ n, ((s.side x).store.slots.get n).state = .filling → ((t.side x).store.slots.get n).state = .ready ∧
        ((t.side x).store.slots.get n).content = ((s.side x).store.slots.get n).content ∧
        ∀ m, ((s.side x).store.slots.get m).state = .ready → ((t.side x).store.slots.get m).state = .free) ∧
      (∀ n m c, ((s.side x).store.slots.get n).state = .filling → ((s.side x).store.slots.get m).state = .ready →
        ((s.side x).store.slots.get m).content = some c → (t.side x).history.map FrameRecord.outcome =
          (s.side x).history.map (fun r => if r.serial = c.link then FrameOutcome.skipped else r.outcome)) ∧
      (t.side x).dev = { (s.side x).dev with frame := none, inputs := none, zones := zeroZones, recent := [] } ∧
      t.side x.other = s.side x.other ∧ t.frameStore = s.frameStore ∧ t.artic = s.artic ∧ t.locks = s.locks ∧
      -- metering (R34, R35)
      ∀ (inp : FrameInputs) (p : Profile) (l : Limits) (lit : Nat) (ms : List ZoneAcc) (e : Exposure) (sen : Sensor),
        (s.side x).dev.inputs = some inp → p = s.profileOf x inp.bank → sen = s.sensorOf x → e = (s.side x).exposure →
        l = { imaxEff := min p.imax sen.imaxHw, aMax := 32 * sen.gainMax, dMax := p.dMax,
              eMax := logLevel (min p.imax sen.imaxHw) + 32 * sen.gainMax + p.dMax } →
        lit = (s.side x).dev.zones.countP (fun a => decide (p.zoneThreshold ≤ a.bright)) →
        ms = ((s.side x).dev.zones.zipIdx.filter (fun a =>
          decide (80 * (a.2 % 12) < inp.main.x + inp.main.w ∧ inp.main.x < 80 * (a.2 % 12) + 80 ∧
            80 * (a.2 / 12) < inp.main.y + inp.main.h ∧ inp.main.y < 80 * (a.2 / 12) + 80) &&
          !(decide (p.zoneThreshold ≤ a.1.bright ∧ lit ≤ p.maxLit) && p.glareEnable))).map Prod.fst →
        (t.side x).history.head?.map FrameRecord.glare =
          (s.side x).history.head?.map (fun _ => some (lit, decide (p.maxLit < lit))) ∧
        (ms = [] → (t.side x).history.head?.map FrameRecord.metered = (s.side x).history.head?.map (fun _ => none) ∧
          (t.side x).exposure = e ∧ (t.side x).bus = (s.side x).bus) ∧
        ∀ (m exp req : Nat) (scene : Int), ms ≠ [] → m = (ms.map ZoneAcc.green).sum / (6400 * ms.length) →
          scene = (logLevel m : Int) - inp.exposure.total →
          exp = (match e.pendingQueue.getLast? with
            | some q => q.record.total
            | none => inp.exposure.total) →
          req = requestedExposure p l e.trim m inp.exposure.total →
          (t.side x).history.head?.map FrameRecord.metered = (s.side x).history.head?.map (fun _ => some (m, scene)) ∧
          ∃ u, e.TakesLadder u (readLadder (s.copies x).ladder) inp.bank scene ∧
            (req = exp → (t.side x).exposure = u ∧ (t.side x).bus = (s.side x).bus) ∧
            (req ≠ exp → u.Requests (t.side x).exposure (s.side x).bus (t.side x).bus sen (splitExposure l req) s.tick)

/-- The good frame end of a frame updates the level and the hold count of every glare zone from the frame's zone accumulators, as the table
of R83 states, with the attack, release and hold of the frame's profile record: a zone is taken as lit when it is lit, the glare enable is
on and glare is not suspended. The last update becomes this frame, with its lit count and suspended flag, which the newest frame record
takes too, and the handed set stays (R80, R81, R82, R83, R90). -/
def Obligations.GoodFrameEndUpdatesEveryGlareZone : Prop :=
  ∀ (x : Side) (s : State) (f : FrameNo) (inp : FrameInputs) (p : Profile), s.inReset = false → (s.side x).port.phase = .lines →
    (s.side x).port.lineCount = 2560 → (s.side x).dev.frame = some f → (s.side x).dev.inputs = some inp →
    p = s.profileOf x inp.bank → (s.side x).glare.zones.length = 192 → (s.side x).dev.zones.length = 192 →
    ∃ (t : State) (lit : Nat), exec (.frameEndMarker x) s = .next t ∧
      lit = (s.side x).dev.zones.countP (fun a => decide (p.zoneThreshold ≤ a.bright)) ∧
      (t.side x).glare.zones.length = 192 ∧
      (∀ (i : Nat) (z : GlareZone) (a : ZoneAcc), (s.side x).glare.zones[i]? = some z → (s.side x).dev.zones[i]? = some a →
        (t.side x).glare.zones[i]? = some
          (if p.zoneThreshold ≤ a.bright ∧ p.glareEnable = true ∧ lit ≤ p.maxLit then
            { level := min 15 (z.level + p.attack), hold := p.hold }
          else if 0 < z.hold then { level := z.level, hold := z.hold - 1 }
          else { level := z.level - p.release, hold := 0 })) ∧
      (t.side x).glare.lastUpdate = some { frame := f, litCount := lit, suspended := decide (p.maxLit < lit) } ∧
      (t.side x).history.head?.map FrameRecord.glare =
        (s.side x).history.head?.map (fun _ => some (lit, decide (p.maxLit < lit))) ∧
      (t.side x).glare.handed = (s.side x).glare.handed

/-- LOSS_EXPIRY when the loss timer has run out, which is in RUNNING with at least the loss timeout of the SENSOR copy since the last frame
start, makes the port LOST and sets SENSOR_LOSS with detail F_cur, discards a frame in LINES with its accumulators at zero and its FILLING
slot freed with outcome DISCARDED, and carries out the side's pending commit, with its DONE reply in the place of the reservation and the
end of TABLE_POISONED where the side is then healed; when the timer has not run out it changes nothing (R9, R11, R61, R112, R161, R162,
R164; that the command is without effect before its timer is due is the model's choice, log entry 7). -/
def Obligations.LossExpiryMakesThePortLost : Prop :=
  ∀ (x : Side) (s : State), s.inReset = false →
    (s.lossDue x = true ↔ (s.side x).port.state = .running ∧
      ((s.copies x).sensor.getD 9 0).toNat ≤ (s.tick - (s.side x).port.lastStart).toNat) ∧
    (s.lossDue x = false → exec (.lossExpiry x) s = .next s) ∧
    (s.lossDue x = true → ∃ t, exec (.lossExpiry x) s = .next t ∧
      (t.side x).port.state = .lost ∧ (t.side x).port.lossCond = true ∧
      (t.side x).port.badCount = (s.side x).port.badCount ∧ (t.side x).port.goodCount = (s.side x).port.goodCount ∧
      (t.faults.get (.side .sensorLoss x)).state ≠ .clear ∧
      (t.faults.get (.side .sensorLoss x)).detail = (s.side x).port.fcur.getD 0 ∧
      ((s.side x).port.phase = .lines → (t.side x).port.phase = .closed ∧ (t.side x).dev.frame = none ∧
        (t.side x).dev.zones = zeroZones) ∧
      ((s.side x).port.phase = .lines → (s.side x).SlotsLawful → (s.side x).DiscardsFilling (t.side x)) ∧
      ((s.side x).port.phase ≠ .lines → (t.side x).dev = (s.side x).dev ∧ (t.side x).store = (s.side x).store ∧
        (t.side x).history = (s.side x).history ∧ (t.side x).port.phase = (s.side x).port.phase) ∧
      (t.side x).tables.commit = none ∧
      (∀ tb, (t.side x).tables.ctl.get tb = if ((s.side x).tables.commit.map (fun c => c.tables.getLsbD tb.num)) = some true
        then ((s.side x).tables.ctl.get tb).swapped else (s.side x).tables.ctl.get tb) ∧
      (∀ l, (t.link l).replies = s.repliesSwapped [x] l) ∧
      ((s.side x).tables.commit = none → s.KeepsPoison t x) ∧
      ((s.side x).tables.commit ≠ none → s.SwapEndsPoison t x) ∧
      { (t.side x).tables with ctl := (s.side x).tables.ctl, commit := (s.side x).tables.commit,
                               poisonCond := (s.side x).tables.poisonCond } = (s.side x).tables ∧
      (t.side x).exposure = (s.side x).exposure ∧ (t.side x).bus = (s.side x).bus ∧ (t.side x).comp = (s.side x).comp ∧
      t.side x.other = s.side x.other ∧ t.frameStore = s.frameStore ∧ t.tableStore = s.tableStore)

/-! ## Sensor bus -/

/-- SENSOR_BUS_RESPONSE ACK to the open transaction ends the head's attempt: the head leaves the buffer and the next entry, if any, starts
its first attempt, with the device address of the SENSOR table in use; with none left the bus is IDLE. When the head was the last entry of
an exposure group, SENSOR_BUS ends if bus_cond is set, the group leaves the outstanding list, and with F_cur known its record joins the
pending queue with target F_cur + N_lat: entries at or after it leave, of 4 the oldest leaves, and it stands last; with no F_cur no entry
is made, and a group not outstanding is ignored. Either response to a head that a side restart left to finish removes it and reports
nothing. In IDLE, and when it belongs to no open transaction, a response is discarded (R18, R19, R21, R22, R40, R41; a transaction is told
by the model's number, log entry 38). -/
def Obligations.AcknowledgedWriteLeavesTheBuffer : Prop :=
  ∀ (x : Side) (s : State), s.inReset = false →
    (∀ n ack, ((s.side x).bus.state = .idle ∨ (s.side x).bus.transaction.map Transaction.number ≠ some n) →
      exec (.sensorBusResponse x ⟨n, ack⟩) s = .next s) ∧
    ∀ k e rest, (s.side x).bus.state = .sending → (s.side x).bus.transaction.map Transaction.number = some k →
      (s.side x).bus.buffer = e :: rest →
      ((s.side x).bus.finishing = true → ∀ ack, ∃ t, exec (.sensorBusResponse x ⟨k, ack⟩) s = .next t ∧ s.HeadFinishes t x rest ∧
        t.side x.other = s.side x.other ∧ t.frameStore = s.frameStore) ∧
      ((s.side x).bus.finishing = false →
      ∃ t, exec (.sensorBusResponse x ⟨k, true⟩) s = .next t ∧
        (t.side x).bus.buffer.map (fun w => (w.register, w.value, w.origin, w.group)) =
          rest.map (fun w => (w.register, w.value, w.origin, w.group)) ∧
        (rest = [] → (t.side x).bus.state = .idle ∧ (t.side x).bus.transaction = none ∧ (t.side x).bus.attempts = 0) ∧
        (∀ n more, rest = n :: more → (t.side x).bus.state = .sending ∧ (t.side x).bus.attempts = 1 ∧
          (t.side x).bus.transaction.map (fun w => (w.register, w.value)) = some (n.register, n.value) ∧
          (t.side x).bus.timerStart = s.tick ∧ s.OpensAttempt t x n) ∧
        ((e.origin = .service ∨ ∃ n more, rest = n :: more ∧ n.group = e.group) →
          (t.side x).exposure = (s.side x).exposure ∧ (t.side x).bus.busCond = (s.side x).bus.busCond ∧
          t.faults.get (.side .sensorBus x) = s.faults.get (.side .sensorBus x)) ∧
        (e.origin = .exposure → (∀ n more, rest = n :: more → n.group ≠ e.group) →
          (t.side x).bus.busCond = false ∧
          ((s.side x).bus.busCond = true → (t.faults.get (.side .sensorBus x)).state = .clear) ∧
          ((s.side x).bus.busCond = false →
            t.faults.get (.side .sensorBus x) = s.faults.get (.side .sensorBus x)) ∧
          (∀ o ∈ (t.side x).exposure.outstanding, o.group ≠ e.group) ∧
          -- the pending entry (R40, R41)
          ∀ (u : Exposure) (others : List OutstandingItem), u = (s.side x).exposure →
            others = u.outstanding.filter (fun o => decide (o.group ≠ e.group)) →
            (u.outstanding.find? (fun o => decide (o.group = e.group)) = none → (t.side x).exposure = u) ∧
            ∀ o, u.outstanding.find? (fun o => decide (o.group = e.group)) = some o →
              ((s.side x).port.fcur = none → (t.side x).exposure = { u with outstanding := others }) ∧
              ∀ (f : FrameNo) (new : PendingEntry) (kept : List PendingEntry), (s.side x).port.fcur = some f →
                new = { target := f + BitVec.ofNat 16 (s.sensorOf x).nLat, record := o.record } →
                kept = u.pendingQueue.filter (fun q => !decide (q.target = new.target) && !later q.target new.target) →
                (kept.length < 4 →
                  (t.side x).exposure = { u with outstanding := others, pendingQueue := kept ++ [new] }) ∧
                (kept.length = 4 →
                  (t.side x).exposure = { u with outstanding := others, pendingQueue := kept.tail ++ [new] })) ∧
        t.side x.other = s.side x.other ∧ t.frameStore = s.frameStore)

/-- RESPONSE_TIMER_EXPIRY when the timer of an open attempt has run out, 20 ticks after its start, and a NAK to the open transaction at any
time, fail the attempt, with the same effect: after a first or second attempt another is opened on the same entry, with the device address
of the SENSOR table in use; after the third SENSOR_BUS is set with the register address as detail, and the entry leaves the buffer, with
the rest of its group where it is an exposure write, whose item leaves the outstanding list; a head that a side restart left to finish
leaves and reports nothing. A response to the failed attempt's transaction that follows is discarded (R18 to R22, R42; a transaction is
told by the model's number, log entry 38). Before the timer has run out, and in IDLE, the expiry changes nothing, which is the model's
choice (log entry 7). -/
def Obligations.FailedAttemptIsRetriedTwiceThenReported : Prop :=
  (∀ (x : Side) (s : State), (s.side x).bus.state = .idle → s.responseDue x = false ∧
    (s.inReset = false → exec (.responseTimerExpiry x) s = .next s)) ∧
  ∀ (x : Side) (s : State) (e : WriteEntry) (rest : List WriteEntry), s.inReset = false → (s.side x).bus.state = .sending →
    (s.side x).bus.buffer = e :: rest →
    (s.responseDue x = true ↔ 20 ≤ (s.tick - (s.side x).bus.timerStart).toNat) ∧
    (s.responseDue x = false → exec (.responseTimerExpiry x) s = .next s) ∧
    (s.responseDue x = true → ∃ t, exec (.responseTimerExpiry x) s = .next t ∧ s.FailsAttempt t x e rest ∧
      ∀ k, (s.side x).bus.transaction.map Transaction.number = some k →
        exec (.sensorBusResponse x ⟨k, false⟩) s = .next t ∧
        (k < s.opened → ∀ ack, exec (.sensorBusResponse x ⟨k, ack⟩) t = .next t)) ∧
    (∀ k, (s.side x).bus.transaction.map Transaction.number = some k →
      ∃ t, exec (.sensorBusResponse x ⟨k, false⟩) s = .next t ∧ s.FailsAttempt t x e rest ∧
        (k < s.opened → ∀ ack, exec (.sensorBusResponse x ⟨k, ack⟩) t = .next t))

/-! ## Exposure arithmetic -/

/-- L(M) by the steps of R25, its bounds, its growth and the values the rule lists. -/
def Obligations.LogOfALevelFollowsItsRule : Prop :=
  (∀ m p : Nat, m ≤ 4095 → 2 ^ p ≤ max m 1 → max m 1 < 2 ^ (p + 1) →
    logLevel m = 256 * p + lg ((max m 1 * 2 ^ (11 - p) - 2048) / 32)) ∧
  (∀ m, m ≤ 4095 → logLevel m ≤ 3069) ∧
  (∀ m n, m ≤ n → n ≤ 4095 → logLevel m ≤ logLevel n) ∧
  logLevel 0 = 0 ∧ logLevel 1 = 0 ∧ logLevel 600 = 2363 ∧ logLevel 1200 = 2619 ∧ logLevel 4000 = 3063 ∧ logLevel 4095 = 3069

/-- P(E) by the steps of R26, and the values the rule lists; P does not decrease. P(L(M)) stays within 1/512 of M, but R26's remark that it
does not exceed M is not borne out by the tables of R23 and R24: P(L(1200)) is 1201 (log entry 14). -/
def Obligations.PowerOfStepsFollowsItsRule : Prop :=
  (∀ e q f : Nat, e = 256 * q + f → f < 256 → powSteps e = mt f * 2 ^ q / 32768) ∧
  powSteps 0 = 1 ∧ powSteps 256 = 2 ∧ powSteps 2900 = 2571 ∧
  (∀ e g, e ≤ g → powSteps e ≤ powSteps g) ∧
  (∀ m, m ≤ 4095 → 512 * powSteps (logLevel m) ≤ 513 * max m 1) ∧ powSteps (logLevel 1200) = 1201

/-- The requested exposure by the steps of R36: the correction is 0 within the deadband, else the damped difference truncated toward zero
and clamped, and the result is clamped to 0..E_max. -/
def Obligations.RequestedExposureFollowsItsRule : Prop :=
  ∀ (p : Profile) (l : Limits) (trim diff dE : Int) (m eF : Nat),
    diff = p.lTarget + trim - (logLevel m : Int) →
    ((-p.deadband ≤ diff ∧ diff ≤ p.deadband) → dE = 0) →
    (¬ (-p.deadband ≤ diff ∧ diff ≤ p.deadband) → 0 ≤ diff → 0 ≤ p.damping →
      dE = max (-p.maxStep) (min (diff * p.damping / 16) p.maxStep)) →
    (¬ (-p.deadband ≤ diff ∧ diff ≤ p.deadband) → diff < 0 → 0 ≤ p.damping →
      dE = max (-p.maxStep) (min (-(-diff * p.damping / 16)) p.maxStep)) →
    0 ≤ p.damping →
    (requestedExposure p l trim m eF : Int) = max 0 (min ((eF : Int) + dE) l.eMax)

/-- The split of a requested exposure by the steps of R38: integration first, then analog gain in whole codes of 32 steps, then digital
gain; each part keeps to its limit, and E is the sum of the parts. The last clause is no sentence of R38: with an integration limit of at
most 4000 the record's E does not exceed the requested one, which follows from the tables and functions of R23 to R26. -/
def Obligations.SplitFollowsItsRuleAndItsLimits : Prop :=
  ∀ (l : Limits) (e : Nat),
    (splitExposure l e).integ = max 1 (min l.imaxEff (powSteps e)) ∧
    (splitExposure l e).analog = min l.aMax (32 * ((e - logLevel (splitExposure l e).integ) / 32)) ∧
    (splitExposure l e).digital = min l.dMax (e - logLevel (splitExposure l e).integ - (splitExposure l e).analog) ∧
    (splitExposure l e).total =
      logLevel (splitExposure l e).integ + (splitExposure l e).analog + (splitExposure l e).digital ∧
    1 ≤ (splitExposure l e).integ ∧ (splitExposure l e).analog ≤ l.aMax ∧ (splitExposure l e).digital ≤ l.dMax ∧
    (1 ≤ l.imaxEff → (splitExposure l e).integ ≤ l.imaxEff) ∧
    (32 ∣ l.aMax → 32 ∣ (splitExposure l e).analog) ∧
    (l.imaxEff ≤ 4000 → (splitExposure l e).total ≤ e)

/-! ## Articulation timer and output composer -/

/-- ARTICULATION_TIMER_EXPIRY when stale_cond is clear and 50 000 ticks have passed since the record's tick makes stale_cond set, keeps the
angle and sets PAN_INPUT_STALE with the angle as detail; otherwise it changes nothing (R101; the second half is the model's choice, log
entry 7). -/
def Obligations.ArticulationTimerMakesTheInputStale : Prop :=
  ∀ s : State, s.inReset = false →
    ((s.artic.stale = true ∨ ticksSince s.tick s.artic.tick < 50000) → exec .articulationTimerExpiry s = .next s) ∧
    (s.artic.stale = false → 50000 ≤ ticksSince s.tick s.artic.tick → ∃ t, exec .articulationTimerExpiry s = .next t ∧
      t.artic = { s.artic with stale := true } ∧
      (t.faults.get (.part .panInputStale)).state ≠ .clear ∧
      (t.faults.get (.part .panInputStale)).detail = BitVec.ofInt 16 s.artic.angle ∧
      (∀ i, i ≠ .part .panInputStale → t.faults.get i = s.faults.get i) ∧
      (∀ l, { t.link l with notices := (s.link l).notices } = s.link l) ∧
      { t with artic := s.artic, links := s.links, faults := s.faults } = s)

/-- OUTPUT_FRAME_START counts the output frame, takes the requested mode into force, brings the repeat count and the view state up to date
from FRESH or REPEAT as R137 to R140 state, with the start count and the recovery progress, sets and ends VIEW_STALE and VIEW_LOST, with
the repeat or start count as detail, and composes the header from what the composer then holds. With FRESH the READY slot becomes SHOWING,
with outcome SHOWN; a READY slot of the wrong geometry or too old is freed, with outcome SKIPPED or STALE. In LIVE_OK and STALE the content
is the picture of the SHOWING slot, or the VIEW_LOST pattern for a damaged repeat. The output frame that ends is closed (R123), the warning
sample is taken from the records as they stand before the echo check (R144), and the echo check is made (R148, R149). The header's words
are those of R211. It touches no state of the other side and no memory (R113, R115, R123, R130, R133, R135 to R141, R143, R144, R146, R148,
R149, R211; that the clean count comes before the sample is the model's reading, log entry 23). -/
def Obligations.OutputFrameStartMovesTheView : Prop :=
  ∀ (x : Side) (s : State), s.inReset = false → (s.side x).SlotsLawful → ∃ (t : State) (fresh : Bool) (n : Nat),
    exec (.outputFrameStart x) s = .next t ∧ (fresh = true ↔ s.FreshAt x) ∧
    (t.side x).comp.frameCount = (s.side x).comp.frameCount + 1 ∧
    (t.side x).comp.mode = (s.side x).comp.requested ∧ (t.side x).comp.requested = (s.side x).comp.requested ∧
    n = (if fresh then 0 else min ((s.side x).comp.repeatCount + 1) 255) ∧ (t.side x).comp.repeatCount = n ∧
    (t.side x).comp.view = (match (s.side x).comp.view, fresh with
      | .starting, true => .liveOk
      | .starting, false =>
        if (s.layoutOf x).startLimit ≤ min ((s.side x).comp.startCount + 1) 600 then .lost else .starting
      | .liveOk, true => .liveOk
      | .liveOk, false => if (s.layoutOf x).blank ≤ n then .lost else if (s.layoutOf x).caution ≤ n then .stale else .liveOk
      | .stale, true => .liveOk
      | .stale, false => if (s.layoutOf x).blank ≤ n then .lost else .stale
      | .lost, true => if (s.layoutOf x).recovery ≤ 1 then .liveOk else .recovering
      | .lost, false => .lost
      | .recovering, true => if (s.layoutOf x).recovery ≤ (s.side x).comp.recovery + 1 then .liveOk else .recovering
      | .recovering, false => .lost) ∧
    (t.side x).comp.startCount = (match (s.side x).comp.view, fresh with
      | .starting, true => 0
      | .starting, false => if (t.side x).comp.view = .lost then 0 else min ((s.side x).comp.startCount + 1) 600
      | _, _ => (s.side x).comp.startCount) ∧
    (t.side x).comp.recovery = (match (s.side x).comp.view, fresh with
      | .lost, true => if (t.side x).comp.view = .liveOk then 0 else 1
      | .recovering, true => if (t.side x).comp.view = .liveOk then 0 else (s.side x).comp.recovery + 1
      | .lost, false => 0
      | .recovering, false => 0
      | _, _ => (s.side x).comp.recovery) ∧
    s.ReportsView t x n ∧
    ((t.side x).comp.mode = .pattern → (t.side x).comp.content = some .colourBars) ∧
    ((t.side x).comp.mode ≠ .pattern → (t.side x).comp.view = .starting → (t.side x).comp.content = some .viewStarting) ∧
    ((t.side x).comp.mode ≠ .pattern → ((t.side x).comp.view = .lost ∨ (t.side x).comp.view = .recovering) →
      (t.side x).comp.content = some .viewLost) ∧
    (fresh = true → ∀ m, ((s.side x).store.slots.get m).state = .ready →
      ((t.side x).store.slots.get m).state = .showing ∧
      ∀ k, ((s.side x).store.slots.get k).state = .showing → ((t.side x).store.slots.get k).state = .free) ∧
    ((t.side x).comp.mode ≠ .pattern → ((t.side x).comp.view = .liveOk ∨ (t.side x).comp.view = .stale) → ∀ m k,
      ((t.side x).store.slots.get m).state = .showing → ((t.side x).store.slots.get m).content = some k →
      (t.side x).comp.content = some (if fresh = false ∧ ((t.side x).store.slots.get m).damaged = true then Content.viewLost
        else .picture m k.source (s.tick - k.source.arrival))) ∧
    (∀ m k, ((s.side x).store.slots.get m).state = .ready → ((s.side x).store.slots.get m).content = some k →
      (t.side x).history = (s.side x).history.map (fun r => if r.serial = k.link then
        { r with outcome :=
            if k.geometry ≠ (s.side x).comp.requested.geometry then .skipped
            else if (s.layoutOf x).ageLimit < ticksSince s.tick k.source.arrival then .stale else .shown } else r) ∧
      (fresh = false → (t.side x).store.slots.get m = ((s.side x).store.slots.get m).freed)) ∧
    ((∀ m, ((s.side x).store.slots.get m).state ≠ .ready) →
      (t.side x).history = (s.side x).history ∧ (t.side x).store.slots = (s.side x).store.slots) ∧
    s.ClosesOutputFrame t x ∧ s.ChecksEcho t x ∧
    (∃ o, (t.side x).comp.warning = some o ∧ o.Samples (fun c =>
      if c = .displayFreeze then (s.faults.get (.side c x)).state else (t.faults.get (.side c x)).state)) ∧
    (t.side x).comp.header = some (headerPacket (t.side x).comp) ∧
    IsPacket (headerPacket (t.side x).comp)
      ([0x0B01, (t.side x).comp.frameCount.extractLsb' 0 16, (t.side x).comp.frameCount.extractLsb' 16 16] ++
       (match (t.side x).comp.content with
         | some (.picture _ src age) => [src.frame, src.arrival.extractLsb' 0 16, src.arrival.extractLsb' 16 16,
             age.extractLsb' 0 16, age.extractLsb' 16 16]
         | _ => [0, 0, 0, 0, 0]) ++
       [BitVec.ofNat 16 ((t.side x).comp.repeatCount + 256 * ((t.side x).comp.frameCount.toNat % 256)),
        BitVec.ofNat 16 ((t.side x).comp.mode.code + 16 * (t.side x).comp.view.code + (match (t.side x).comp.content with
          | some (.picture _ _ _) => 256
          | _ => 0))]) ∧
    { t.side x with history := (s.side x).history, store := (s.side x).store, comp := (s.side x).comp } = s.side x ∧
    s.EventOf t x [.side .viewStale x, .side .viewLost x, .side .displayFreeze x, .side .frameStoreError x]

/-- A stale picture does not pass for a live one: after any OUTPUT_FRAME_START a picture is the content only in LIVE_OK or STALE and in no
PATTERN mode, it is the SHOWING slot's with its source and its age, and where it is a repeat the repeat count is below the blank watermark
and the slot is not DAMAGED (R135, R139, R141). -/
def Obligations.StalePictureNeverPassesForALiveOne : Prop :=
  ∀ (x : Side) (s : State), s.inReset = false → ∃ t, exec (.outputFrameStart x) s = .next t ∧
    ∀ n src age, (t.side x).comp.content = some (.picture n src age) →
      ((t.side x).comp.view = .liveOk ∨ (t.side x).comp.view = .stale) ∧ (t.side x).comp.mode ≠ .pattern ∧
      ((t.side x).store.slots.get n).state = .showing ∧
      ((t.side x).store.slots.get n).content.map SlotContent.source = some src ∧ age = t.tick - src.arrival ∧
      ((t.side x).comp.repeatCount = 0 ∨
        ((t.side x).comp.repeatCount < (t.layoutOf x).blank ∧ ((t.side x).store.slots.get n).damaged = false))

/-! ## Line periods -/

/-- LINE_PERIOD_START gives each UP link's packet slot: the frame header in period 0; in any other the oldest FAULT notice, else the oldest
ready reply, else the oldest other notice, else nothing. A chosen notice carries its record as it stands, a chosen reply takes the overrun
mark with it, and the chosen one leaves its queue; in a blanking period, and in an active line whose reads find no error, the queues change
in nothing else. A link that is not UP sends nothing. No word of a memory changes (R131, R146, R185, R186, R194; that one command starts
the period of both sides is the model's choice, log entry 8). The last two clauses give the words of a notice packet and of a reply packet,
whose sum is 0 (R211). -/
def Obligations.LinePeriodGivesTheSlotByTheArbitersRule : Prop :=
  (∀ (k : Fin 1300) (s : State), s.inReset = false → ∃ t, exec (.linePeriodStart k) s = .next t ∧
    t.frameStore.mem = s.frameStore.mem ∧ t.tableStore = s.tableStore ∧ t.tick = s.tick ∧ t.locks = s.locks ∧ t.artic = s.artic ∧
    ∀ l : Side, ∀ quiet : Prop, (quiet ↔ k.val < 20 ∨ s.PicturesReadClean (k.val - 20)) →
      (t.link l).state = (s.link l).state ∧ (t.link l).mask = (s.link l).mask ∧
      ((s.link l).state ≠ .up → (t.link l).forward = none ∧ (t.link l).replies = (s.link l).replies) ∧
      ((s.link l).state = .up → k = 0 →
        t.link l =
          { s.link l with forward := some { period := 0, packet := (s.side l).comp.header, pixels := [] } }) ∧
      ((s.link l).state = .up → k ≠ 0 → ∀ i,
        (s.link l).notices.find? (fun i => decide (i.severity = .fault)) = some i →
        (t.link l).forward.map Forward.packet = some (some (noticePacket i (s.faults.get i))) ∧
        (t.link l).replies = (s.link l).replies ∧
        (quiet → (t.link l).notices = (s.link l).notices.erase i)) ∧
      ((s.link l).state = .up → k ≠ 0 → (∀ i ∈ (s.link l).notices, i.severity ≠ .fault) → ∀ r,
        (s.link l).replies.findSome? ReplyEntry.reply? = some r →
        (t.link l).forward.map Forward.packet = some (some (replyPacket r (s.link l).overrun)) ∧
        (t.link l).overrun = false ∧ (t.link l).replies.length + 1 = (s.link l).replies.length ∧
        (t.link l).replies = (s.link l).replies.erase (.ready r) ∧
        (quiet → (t.link l).notices = (s.link l).notices)) ∧
      ((s.link l).state = .up → k ≠ 0 → (∀ i ∈ (s.link l).notices, i.severity ≠ .fault) →
        (s.link l).replies.findSome? ReplyEntry.reply? = none →
        (t.link l).forward.map Forward.packet =
          some ((s.link l).notices.head?.map (fun i => noticePacket i (s.faults.get i))) ∧
        (t.link l).replies = (s.link l).replies ∧
        (quiet → (t.link l).notices = (s.link l).notices.tail))) ∧
  (∀ (i : RecordId) (r : FaultRecord), IsPacket (noticePacket i r)
    [0x0B03, BitVec.ofNat 16 (i.index + 256 * i.classCode), BitVec.ofNat 16 (r.state.code + 256 * (r.count % 256)), r.detail]) ∧
  (∀ (r : Reply) (overrun : Bool), IsPacket (replyPacket r overrun)
    ([0x0B02,
      BitVec.ofNat 16 (r.tag.toNat + (if r.reason.isSome then 256 else 0) + (if overrun then 512 else 0)),
      BitVec.ofNat 16 ((match r.reason with
        | none => 0
        | some q => q.code) + 256 * (r.data.length % 256))] ++ r.data))

/-- In the line period of active line y an UP link carries 720 pixels: the liveness patch, grey of the output frame count modulo 256, on
columns 0..15 of rows 1264..1279; the band over the whole line, or the square on columns 696..719, of rows 0..23; elsewhere the pattern, or
the picture's bytes as the row's words deliver them, black where a byte's word is uncorrectable, here with no injection armed. The reads of
the picture change no word. A row with one word that does not read clean, by its stored bits or by an injection on its address, while the
other side shows no picture: corrected, it is offered to the log and sets ERROR_CORRECTED; uncorrectable, it sets DAMAGED and
FRAME_STORE_ERROR and restarts the clean count (R117, R118, R120 to R124, R127, R131, R136, R144, R145). -/
def Obligations.ActiveLineCarriesItsPixelsAndOverlays : Prop :=
  ∀ (k : Fin 1300) (l : Side) (s : State) (c : Content), s.inReset = false → 20 ≤ k.val → (s.link l).state = .up →
    (s.side l).comp.content = some c → ∃ t px, exec (.linePeriodStart k) s = .next t ∧
    (t.link l).forward.map Forward.pixels = some px ∧ px.length = 720 ∧
    (1264 ≤ k.val - 20 → ∀ i, i < 16 →
      px[i]? = some { r := (s.side l).comp.frameCount.setWidth 8, g := (s.side l).comp.frameCount.setWidth 8,
                      b := (s.side l).comp.frameCount.setWidth 8 }) ∧
    (k.val - 20 < 24 → (s.side l).comp.warning = some .redBand → ∀ i, i < 720 → px[i]? = some { r := 255, g := 0, b := 0 }) ∧
    (k.val - 20 < 24 → (s.side l).comp.warning = some .amberBand → ∀ i, i < 720 →
      px[i]? = some { r := 255, g := 176, b := 0 }) ∧
    (k.val - 20 < 24 → (s.side l).comp.warning = some .redSquare → ∀ i, 696 ≤ i → i < 720 →
      px[i]? = some { r := 255, g := 0, b := 0 }) ∧
    (k.val - 20 < 24 → (s.side l).comp.warning = some .amberSquare → ∀ i, 696 ≤ i → i < 720 →
      px[i]? = some { r := 255, g := 176, b := 0 }) ∧
    t.frameStore.mem = s.frameStore.mem ∧
    -- the content where no overlay lies (R136, R117, R121, R122)
    (∀ i, i < 720 → (1264 ≤ k.val - 20 → 16 ≤ i) →
      (k.val - 20 < 24 → (s.side l).comp.warning ≠ some .redBand ∧ (s.side l).comp.warning ≠ some .amberBand ∧
        (696 ≤ i → (s.side l).comp.warning ≠ some .redSquare ∧ (s.side l).comp.warning ≠ some .amberSquare)) →
      (c = .viewStarting → px[i]? = some { r := 64, g := 64, b := 64 }) ∧
      (c = .viewLost → px[i]? = some { r := 128, g := 128, b := 128 }) ∧
      (c = .colourBars → px[i]? =
        ([{ r := 255, g := 255, b := 255 }, { r := 255, g := 255, b := 0 }, { r := 0, g := 255, b := 255 },
          { r := 0, g := 255, b := 0 }, { r := 255, g := 0, b := 255 }, { r := 255, g := 0, b := 0 },
          { r := 0, g := 0, b := 255 }, { r := 0, g := 0, b := 0 }] : List Pixel)[i / 90]?) ∧
      ∀ n src age (byte : Nat → Option Byte), c = .picture n src age → s.frameStore.injection = none →
        (∀ b, byte b = (delivered 7 64 (Mem.read frameDefault s.frameStore.mem (frameAddr l n (k.val - 20) (b / 8)))).map
          (fun v => v.extractLsb' (8 * (b % 8)) 8)) →
        px[i]? = some (match byte (3 * i), byte (3 * i + 1), byte (3 * i + 2) with
          | some r, some g, some b => { r := r, g := g, b := b }
          | _, _, _ => { r := 0, g := 0, b := 0 })) ∧
    -- one word of the row that may not read clean (R120 to R124, R127)
    ∀ n src age w a (b : BitVec 72), c = .picture n src age → w < 270 → a = frameAddr l n (k.val - 20) w →
      (∀ m src' age', (s.side l.other).comp.content ≠ some (.picture m src' age')) →
      (∀ o, o < 270 → o ≠ w →
        checkWord 7 (Mem.read frameDefault s.frameStore.mem (frameAddr l n (k.val - 20) o)) = .clean) →
      ((s.frameStore.injection = none ∧ b = Mem.read frameDefault s.frameStore.mem a) ∨
        ∃ i, s.frameStore.injection = some i ∧ i.trigger = .address a ∧
          b = Mem.read frameDefault s.frameStore.mem a ^^^ (if i.kind = .single then 8 else 40)) →
      t.frameStore.injection = none ∧ t.frameStore.log = logAfter 7 l s.frameStore.log [(a, b)] ∧
      (checkWord 7 b = .clean → t.sides = s.sides ∧ t.corrCond = s.corrCond ∧ t.faults = s.faults) ∧
      (∀ y v, checkWord 7 b = .corrected y v → t.ReportsCorrected a ∧ t.sides = s.sides ∧
        ∀ i, i ≠ .part .errorCorrected → t.faults.get i = s.faults.get i) ∧
      (∀ y, checkWord 7 b = .uncorrectable y →
        (∀ m, (t.side l).store.slots.get m =
          if m = n then { (s.side l).store.slots.get m with damaged := true } else (s.side l).store.slots.get m) ∧
        (t.side l).store.cleanCount = 0 ∧ (t.side l).store.fseCond = true ∧ (t.side l).store.frameDirty = true ∧
        { t.side l with store := (s.side l).store } = s.side l ∧ t.side l.other = s.side l.other ∧
        (t.faults.get (.side .frameStoreError l)).state ≠ .clear ∧
        (t.faults.get (.side .frameStoreError l)).detail = BitVec.ofNat 16 a ∧ t.corrCond = s.corrCond ∧
        ∀ i, i ≠ .side .frameStoreError l → t.faults.get i = s.faults.get i)

/-! ## Links and the reverse channel -/

/-- The link events by the table of R191. TRAINING_REQUEST leaves the link in TRAINING; READY takes TRAINING to UP and is ignored
elsewhere; LOSS_OF_LOCK takes TRAINING and UP to DOWN and is ignored in DOWN. Entering UP sets been_up, clears link_cond and makes the
composer forget its status word and its echo counts. Its notice queue then takes, each unless queued already, the end of DISPLAY_LINK_DOWN
that is reported and, in record order, every record in force that the mask admits and the routing now sends to the link. The other link
stays, and so does the record of DISPLAY_LINK_DOWN where link_cond is clear (R191, R193, R152, R183, R184, R188). -/
def Obligations.LinkEventsFollowTheTable : Prop :=
  ∀ (l : Side) (s : State), s.inReset = false →
    (∃ t, exec (.trainingRequest l) s = .next t ∧ (t.link l).state = .training ∧
      ((s.link l).state = .training → t = s) ∧
      ((s.link l).state = .down → t = { s with links := s.links.set l { s.link l with state := .training } }) ∧
      (t.link l.other).state = (s.link l.other).state) ∧
    ((s.link l).state ≠ .training → exec (.ready l) s = .next s) ∧
    ((s.link l).state = .training → ∃ t, exec (.ready l) s = .next t ∧
      (t.link l).state = .up ∧ (t.link l).beenUp = true ∧ (t.link l).linkCond = false ∧
      (t.link l).replies = (s.link l).replies ∧
      ((s.link l).linkCond = true → (t.faults.get (.side .displayLinkDown l)).state = .clear) ∧
      ((s.link l).linkCond = false → t.faults = s.faults) ∧
      t.link l.other = s.link l.other ∧
      { t.link l with state := .training, beenUp := (s.link l).beenUp, linkCond := (s.link l).linkCond,
                      notices := (s.link l).notices } = s.link l ∧
      t.side l =
        { s.side l with comp := { (s.side l).comp with status := none, silence := 0, lagStrikes := 0, goodChecks := 0 } } ∧
      (t.link l).notices =
        ((if (s.link l).linkCond = true ∧ (s.faults.get (.side .displayLinkDown l)).state ≠ .clear ∧
            (s.link l).mask.getLsbD 8 = true then [RecordId.side .displayLinkDown l] else []) ++
          RecordId.all.filter (fun i => decide ((t.faults.get i).state ≠ .clear) && (s.link l).mask.getLsbD i.classCode &&
            (match i with
              | .side _ y => decide (y = l) || decide ((s.link l.other).state ≠ .up)
              | .part _ => true))).foldl
          (fun q i => if i ∈ q then q else q ++ [i]) (s.link l).notices ∧
      s.EventOf { t with links := s.links } l [.side .displayLinkDown l]) ∧
    ((s.link l).state = .down → exec (.lossOfLock l) s = .next s) ∧
    ((s.link l).state ≠ .down → ∃ t, exec (.lossOfLock l) s = .next t ∧ (t.link l).state = .down ∧
      (t.link l.other).state = (s.link l.other).state)

/-- A link that enters DOWN, by loss of lock or by a training request taken in UP, empties its reply queue and its notice queue, clears its
overrun flag, drops the reservations it holds, makes the trim of its side 0, and, if it has been UP, sets DISPLAY_LINK_DOWN with the state
it left, 1 for UP and 2 for TRAINING, as detail. If the other link is UP, its notice queue then takes, each unless queued already, the
admitted records of the side that are in force, in record order, and after them DISPLAY_LINK_DOWN if that is new; else its notices stay. No
other fault record changes (R51, R177, R187, R192). -/
def Obligations.EnteringDownEmptiesTheLinkAndHandsOver : Prop :=
  ∀ (l : Side) (s : State) (i : Instr), s.inReset = false →
    ((i = .lossOfLock l ∧ (s.link l).state ≠ .down) ∨ (i = .trainingRequest l ∧ (s.link l).state = .up)) →
    ∃ t, exec i s = .next t ∧
      (t.link l).replies = [] ∧ (t.link l).notices = [] ∧ (t.link l).overrun = false ∧ (t.link l).forward = none ∧
      (t.link l).mask = (s.link l).mask ∧ (t.link l).beenUp = (s.link l).beenUp ∧
      (t.side l).exposure = { (s.side l).exposure with trim := 0 } ∧
      (t.side l.other).exposure = (s.side l.other).exposure ∧
      (∀ x, (t.side x).tables.commit =
        (s.side x).tables.commit.map (fun c => { c with link := if c.link = some l then none else c.link })) ∧
      (∀ x, { t.side x with tables := (s.side x).tables, exposure := (s.side x).exposure } = s.side x) ∧
      ((s.link l).beenUp = true → (t.link l).linkCond = true ∧
        (t.faults.get (.side .displayLinkDown l)).state ≠ .clear ∧
        (t.faults.get (.side .displayLinkDown l)).detail = if (s.link l).state = .up then 1 else 2) ∧
      ((s.link l).beenUp = false → t.faults = s.faults) ∧
      ((s.link l.other).state = .up → ∀ c, (t.faults.get (.side c l)).state ≠ .clear →
        admits (s.link l.other).mask (.side c l) = true → RecordId.side c l ∈ (t.link l.other).notices) ∧
      (∀ (inForce new : List RecordId), inForce = (SideClass.all.map (fun c => RecordId.side c l)).filter (fun i =>
          decide ((s.faults.get i).state ≠ .clear) && (s.link l.other).mask.getLsbD i.classCode) →
        new = (if (s.link l).beenUp = true ∧ (s.faults.get (.side .displayLinkDown l)).state = .clear ∧
          (s.link l.other).mask.getLsbD 8 = true then [.side .displayLinkDown l] else []) →
        (t.link l.other).notices = if (s.link l.other).state = .up then
            (inForce ++ new).foldl (fun q i => if i ∈ q then q else q ++ [i]) (s.link l.other).notices
          else (s.link l.other).notices) ∧
      { t.link l.other with notices := (s.link l.other).notices } = s.link l.other ∧
      (∀ i, i ≠ .side .displayLinkDown l → t.faults.get i = s.faults.get i) ∧
      ((s.link l).beenUp = true → (s.faults.get (.side .displayLinkDown l)).state ≠ .clear →
        (t.faults.get (.side .displayLinkDown l)).state = (s.faults.get (.side .displayLinkDown l)).state) ∧
      t.frameStore = s.frameStore ∧ t.tableStore = s.tableStore ∧ t.locks = s.locks ∧ t.artic = s.artic

/-- STATUS_WORD on an UP link is handed to the side's composer at once: the latest status word becomes this word, with its echo count and
its panel status, OK for 0 and FAULT for any other value, and the silence count becomes 0. On a link that is not UP it is not handed on.
Nothing else changes (R147, R195, R211). -/
def Obligations.StatusWordReachesTheComposer : Prop :=
  ∀ (l : Side) (echo : BitVec 32) (panel : Word) (s : State), s.inReset = false →
    ((s.link l).state ≠ .up → exec (.statusWord l echo panel) s = .next s) ∧
    ((s.link l).state = .up → exec (.statusWord l echo panel) s = .next { s with
      sides := s.sides.set l { s.side l with comp := { (s.side l).comp with
        status := some { echo := echo, panelFault := decide (panel ≠ 0) }, silence := 0 } } })

/-- A reverse packet whose words do not sum to 0, or whose kind word is neither of the two, is received as a dropped packet, and
PACKET_DROPPED reaches no block: the state is unchanged (R195, R211). UNKNOWN_DIRECTIVE: an admitted packet whose code names no directive
is answered REFUSED UNKNOWN_DIRECTIVE with its tag, whatever else it carries, and changes nothing else (R196, R197, R198). -/
def Obligations.DroppedAndUnknownPacketsTakeNoEffect : Prop :=
  ((∀ (l : Side) (ws : List Word), wordSum ws ≠ 0 → receive l ws = some (.packetDropped l ws)) ∧
   (∀ (l : Side) (ws : List Word), (∀ kind, ws.head? = some kind → kind ≠ 0x0A01 ∧ kind ≠ 0x0A02) →
     receive l ws = some (.packetDropped l ws)) ∧
   ∀ (l : Side) (ws : List Word) (s : State), s.inReset = false → exec (.packetDropped l ws) s = .next s) ∧
  (∀ (l : Side) (code : BitVec 8) (p : Packet) (s : State), s.Admits l →
     exec (.unknownDirective l code p) s = .next (s.Answered l p.tag (some .unknownDirective) []))

/-- Receiving the words that carry a command gives that command back: for every well-formed command that a reverse packet is, with every
tag, side field, length, selector word and argument word at every value (R195, R198, R199, R211). Which row a READ_ITEM or an INJECT_ERROR
whose selector names none becomes is the model's choice (log entry 11). -/
def Obligations.ReceivingWhatWasSentGivesTheCommand : Prop :=
  ∀ (i : Instr) (l : Side) (ws : List Word), i.wellFormed = true → i.reverseWords = some (l, ws) → receive l ws = some i

/-- A directive that finds 8 entries in its link's reply queue is discarded: it sets the overrun flag and has no other effect. On a link
that is not UP it is not handed on at all. An admitted directive with a known code whose length field exceeds 32 or is not the number of
argument words carried is refused BAD_ARGUMENT, and changes nothing else. So is one whose side field the directive does not allow: BOTH
where it takes LEFT or RIGHT, and 3 where it reads a side at all. Where it reads none, the side field makes no difference (R195, R196,
R198, R199). -/
def Obligations.DirectivesAreDiscardedOrRefusedBeforeTheirRule : Prop :=
  (∀ (i : Instr) (l : Side) (p : Packet) (s : State), i.directivePacket = some (l, p) → s.inReset = false →
     ((s.link l).state ≠ .up → exec i s = .next s) ∧
     ((s.link l).state = .up → 8 ≤ (s.link l).replies.length →
       exec i s = .next { s with links := s.links.set l { s.link l with overrun := true } })) ∧
  (∀ (i : Instr) (l : Side) (p : Packet) (s : State), i.directivePacket = some (l, p) →
     (∀ code, i ≠ .unknownDirective l code p) → s.Admits l → (32 < p.length.toNat ∨ p.length.toNat ≠ p.args.length) →
     exec i s = .next (s.Answered l p.tag (some .badArgument) [])) ∧
  -- the side field (step 3 of R198)
  (∀ (i : Instr) (l : Side) (p : Packet) (s : State), i.directivePacket = some (l, p) → s.Admits l →
     i.sideValues ≤ p.side.toNat → exec i s = .next (s.Answered l p.tag (some .badArgument) [])) ∧
  (∀ (l : Side) (p q : Packet) (s : State), q = { p with side := q.side } →
     exec (.faultRecord l p) s = exec (.faultRecord l q) s ∧ exec (.errorLog l p) s = exec (.errorLog l q) s ∧
     exec (.partState l p) s = exec (.partState l q) s ∧ exec (.articulation l p) s = exec (.articulation l q) s ∧
     exec (.defectSplit l p) s = exec (.defectSplit l q) s ∧ exec (.clearErrorLog l p) s = exec (.clearErrorLog l q) s ∧
     exec (.injectErrorFrameStore l p) s = exec (.injectErrorFrameStore l q) s ∧
     exec (.injectErrorTableStore l p) s = exec (.injectErrorTableStore l q) s ∧ exec (.lock l p) s = exec (.lock l q) s)

/-- Every admitted directive takes one place at the tail of its own link's reply queue, with its tag, and takes none in the other link's;
the entries before it keep their places and their tags (R196, R197). -/
def Obligations.EveryAdmittedDirectiveTakesOnePlace : Prop :=
  ∀ (i : Instr) (l : Side) (p : Packet) (s : State), i.directivePacket = some (l, p) → s.Admits l →
    ∃ t, exec i s = .next t ∧
      (t.link l).replies.map ReplyEntry.tag = (s.link l).replies.map ReplyEntry.tag ++ [p.tag] ∧
      (t.link l.other).replies.map ReplyEntry.tag = (s.link l.other).replies.map ReplyEntry.tag ∧
      ∀ x, (t.link x).state = (s.link x).state

/-! ## Reading state -/

/-- READ_ITEM FRAME_HISTORY of index 0..7 is DONE with the number of records held and, where the index lies below it, the record's 13 words
in the layout of R214. READ_ITEM EXPOSURE_STATE is DONE with 8 + 5 × p words in the layout of R214, p the pending count: the mode, banks,
dwell, mismatch count and trim, the in-force record, and each pending entry in target order. Neither changes anything but the reply queue
(R49, R199, R200, R214). -/
def Obligations.FrameHistoryAndExposureStateReport : Prop :=
  (∀ (l x : Side) (p : Packet) (s : State), s.Admits l → p.Plain → p.s0 = 0 → sideField p.side = some x →
     (7 < p.s1.toNat → exec (.frameHistory l p) s = .next (s.Answered l p.tag (some .badArgument) [])) ∧
     (p.s1.toNat ≤ 7 → (s.side x).history.length ≤ p.s1.toNat →
       exec (.frameHistory l p) s = .next (s.Answered l p.tag none [BitVec.ofNat 16 (s.side x).history.length])) ∧
     (p.s1.toNat ≤ 7 → ∀ r, (s.side x).history[p.s1.toNat]? = some r →
       exec (.frameHistory l p) s = .next (s.Answered l p.tag none
         [BitVec.ofNat 16 (s.side x).history.length, r.number,
          BitVec.ofNat 16 ((if r.gap then 1 else 0) + (if r.matched then 2 else 0) + (if r.metered.isSome then 4 else 0) +
            (if r.glare.isSome then 8 else 0) + (if r.glare.map Prod.snd = some true then 16 else 0) +
            256 * r.cls.code + 4096 * r.bank.val),
          BitVec.ofInt 16 r.temp, r.arrival.extractLsb' 0 16, r.arrival.extractLsb' 16 16,
          BitVec.ofNat 16 r.exposure.total, BitVec.ofNat 16 r.exposure.integ, BitVec.ofNat 16 r.exposure.analog,
          BitVec.ofNat 16 r.exposure.digital,
          BitVec.ofNat 16 ((r.slot.map SlotNo.num).getD 0 + 256 * r.outcome.code),
          BitVec.ofNat 16 ((r.metered.map Prod.fst).getD 0), BitVec.ofInt 16 ((r.metered.map Prod.snd).getD 0),
          BitVec.ofNat 16 ((r.glare.map Prod.fst).getD 0)]))) ∧
  (∀ (l x : Side) (p : Packet) (s : State) (e : Exposure), s.Admits l → p.Plain → p.s0 = 3 → sideField p.side = some x →
     e = (s.side x).exposure →
     exec (.exposureState l p) s = .next (s.Answered l p.tag none
       ([BitVec.ofNat 16 ((if e.inForce.isSome then 1 else 0) + 16 * e.pendingQueue.length + (match e.mode with
           | .auto => 0
           | .forced b => 256 + 512 * b.val) + 4096 * e.bank.val),
         BitVec.ofNat 16 ((match e.scheduled with
           | some b => b.val
           | none => 4) + 16 * (match e.direction with
           | some b => b.val
           | none => 4) + 256 * e.dwell),
         BitVec.ofNat 16 e.mismatchCount, BitVec.ofInt 16 e.trim,
         BitVec.ofNat 16 ((e.inForce.map ExpRecord.total).getD 0), BitVec.ofNat 16 ((e.inForce.map ExpRecord.integ).getD 0),
         BitVec.ofNat 16 ((e.inForce.map ExpRecord.analog).getD 0), BitVec.ofNat 16 ((e.inForce.map ExpRecord.digital).getD 0)] ++
        e.pendingQueue.flatMap (fun q =>
         [q.target, BitVec.ofNat 16 q.record.total, BitVec.ofNat 16 q.record.integ, BitVec.ofNat 16 q.record.analog,
          BitVec.ofNat 16 q.record.digital]))))

/-- READ_ITEM FAULT_RECORD of an index 0..23 is DONE with the record's 11 words in the layout of R214: its fixed fields and state, its
count, ticks and detail, where a notice for it is queued, and both masks; it changes nothing but the reply queue (R176, R181, R214). -/
def Obligations.FaultRecordReportsTheRecord : Prop :=
  ∀ (l : Side) (p : Packet) (s : State), s.Admits l → p.Plain → p.s0 = 1 →
    (23 < p.s1.toNat → exec (.faultRecord l p) s = .next (s.Answered l p.tag (some .badArgument) [])) ∧
    (∀ i : RecordId, i.index = p.s1.toNat → exec (.faultRecord l p) s = .next (s.Answered l p.tag none
      [BitVec.ofNat 16 (i.index + 256 * i.classCode),
       BitVec.ofNat 16 ((if 22 ≤ i.index then 1 else 0) + 16 * i.severity.code + 256 * (s.faults.get i).state.code +
         (if (s.faults.get i).firstActive.isSome then 4096 else 0) + (if (s.faults.get i).lastChange.isSome then 8192 else 0)),
       BitVec.ofNat 16 (s.faults.get i).count,
       ((s.faults.get i).firstActive.getD 0).extractLsb' 0 16, ((s.faults.get i).firstActive.getD 0).extractLsb' 16 16,
       ((s.faults.get i).lastChange.getD 0).extractLsb' 0 16, ((s.faults.get i).lastChange.getD 0).extractLsb' 16 16,
       (s.faults.get i).detail,
       BitVec.ofNat 16 ((if i ∈ (s.link .left).notices then 1 else 0) + (if i ∈ (s.link .right).notices then 2 else 0)),
       (s.link .left).mask.setWidth 16, (s.link .right).mask.setWidth 16]))

/-- READ_ITEM ERROR_LOG of the frame store or of the table store is DONE with 7 words in the layout of R214: the log record with its
syndrome and address, corr_cond, and the injection with its trigger and, for COUNT, its read count. A memory that is neither is refused
BAD_ARGUMENT. Nothing but the reply queue changes (R129, R173, R199, R214; corr_cond stands in word 0 with an empty log too, log entry
15). -/
def Obligations.ErrorLogReportsOneMemory : Prop :=
  ∀ (l : Side) (p : Packet) (s : State) (log : Option LogRecord) (j : Option Injection), s.Admits l → p.Plain → p.s0 = 2 →
    (p.s1 ≠ 1 → p.s1 ≠ 2 → exec (.errorLog l p) s = .next (s.Answered l p.tag (some .badArgument) [])) ∧
    ((p.s1 = 1 ∧ log = s.frameStore.log ∧ j = s.frameStore.injection) ∨
      (p.s1 = 2 ∧ log = s.tableStore.log ∧ j = s.tableStore.injection) →
      exec (.errorLog l p) s = .next (s.Answered l p.tag none
        [BitVec.ofNat 16 ((if log.isSome then 1 else 0) + (if log.map LogRecord.kind = some .uncorrectable then 2 else 0) +
           (if log.map LogRecord.side = some .right then 4 else 0) + (if s.corrCond then 8 else 0) +
           (if j.isSome then 16 else 0) + (if j.map Injection.kind = some .double then 32 else 0) +
           (match j with
             | some { trigger := .count _, .. } => 64
             | _ => 0)),
         BitVec.ofNat 16 ((log.map LogRecord.syndrome).getD 0),
         (BitVec.ofNat 32 ((log.map LogRecord.addr).getD 0)).extractLsb' 0 16,
         (BitVec.ofNat 32 ((log.map LogRecord.addr).getD 0)).extractLsb' 16 16,
         (BitVec.ofNat 32 (match j with
           | some { trigger := .address a, .. } => a
           | some { trigger := .count n, .. } => n
           | none => 0)).extractLsb' 0 16,
         (BitVec.ofNat 32 (match j with
           | some { trigger := .address a, .. } => a
           | some { trigger := .count n, .. } => n
           | none => 0)).extractLsb' 16 16,
         BitVec.ofNat 16 (match j with
           | some { trigger := .count _, reads := r, .. } => r
           | _ => 0)]))

/-- READ_ITEM GLARE_LEVELS of a zone row 0..15 is DONE with 52 words: for each of the 12 zones of the row its level, its hold count and its
handed attenuation with a presence word, and the last update with a presence word. WINDOW_STATE is DONE with the aim offsets, the pan
target and current pan, the two windows with their clamp marks as one whole that may be absent, and the angle with its stale flag.
SLOT_STATE is DONE with the state, DAMAGED flag and contents of slots 0, 1 and 2, the clean count and fse_cond. The codes of clamp marks,
slot states and geometry tags are free (log entry 1). None changes anything but the reply queue (R92, R106, R128, R214). -/
def Obligations.GlareWindowAndSlotStateReport : Prop :=
  (∀ (l x : Side) (p : Packet) (s : State) (g : Glare), s.Admits l → p.Plain → p.s0 = 4 → sideField p.side = some x →
     g = (s.side x).glare →
     (15 < p.s1.toNat → exec (.glareLevels l p) s = .next (s.Answered l p.tag (some .badArgument) [])) ∧
     (p.s1.toNat ≤ 15 → ∃ data, exec (.glareLevels l p) s = .next (s.Answered l p.tag none data) ∧ data.length = 52 ∧
       (∀ zc z, zc < 12 → g.zones[12 * p.s1.toNat + zc]? = some z →
         data[4 * zc]? = some (BitVec.ofNat 16 z.level) ∧ data[4 * zc + 1]? = some (BitVec.ofNat 16 z.hold) ∧
         (g.handed = none → data[4 * zc + 2]? = some 0 ∧ data[4 * zc + 3]? = some 0) ∧
         (∀ hs a, g.handed = some hs → hs[12 * p.s1.toNat + zc]? = some a →
           data[4 * zc + 2]? = some 1 ∧ data[4 * zc + 3]? = some (BitVec.ofInt 16 a))) ∧
       data.drop 48 = (match g.lastUpdate with
         | some u => [1, u.frame, BitVec.ofNat 16 u.litCount, if u.suspended then 1 else 0]
         | none => [0, 0, 0, 0]))) ∧
  (∀ (l x : Side) (p : Packet) (s : State) (f : Framing), s.Admits l → p.Plain → sideField p.side = some x →
     f = (s.side x).framing →
     (p.s0 = 5 → exec (.windowState l p) s = .next (s.Answered l p.tag none
       ([BitVec.ofInt 16 f.aimDx, BitVec.ofInt 16 f.aimDy, BitVec.ofNat 16 f.panTarget, BitVec.ofNat 16 f.panCur] ++
         (match f.windows with
           | some w =>
             [1, BitVec.ofNat 16 w.main.x, BitVec.ofNat 16 w.main.y, BitVec.ofNat 16 w.main.w, BitVec.ofNat 16 w.main.h,
              BitVec.ofNat 16 w.wide.x, BitVec.ofNat 16 w.wide.y, BitVec.ofNat 16 w.wide.w, BitVec.ofNat 16 w.wide.h,
              Config.clampMarkCode w.markX, Config.clampMarkCode w.markY]
           | none => [0, 0, 0, 0, 0, 0, 0, 0, 0, 0, 0]) ++
         [BitVec.ofInt 16 s.artic.angle, if s.artic.stale then 1 else 0]))) ∧
     (p.s0 = 6 → exec (.slotState l p) s = .next (s.Answered l p.tag none
       (([SlotNo.s0, .s1, .s2].flatMap (fun n =>
         [Config.slotStateCode ((s.side x).store.slots.get n).state, if ((s.side x).store.slots.get n).damaged then 1 else 0] ++
           (match ((s.side x).store.slots.get n).content with
             | some c => [1, Config.geometryCode c.geometry, c.source.frame, c.source.arrival.extractLsb' 0 16,
                 c.source.arrival.extractLsb' 16 16]
             | none => [0, 0, 0, 0, 0]))) ++
         [BitVec.ofNat 16 (s.side x).store.cleanCount, if (s.side x).store.fseCond then 1 else 0]))))

/-- READ_ITEM TABLE_STATE is DONE with six words for each table, its active bank, its shadow state and the poison of the active bank and of
the shadow, then the pending commit, the list length, the share, the number of pending edits, the defect-loss flag and poison_cond;
READ_ITEM PART_STATE is DONE with the identity 0x5A24, revision 1 and ROM table version 1, the states of both sides and both links, and the
four locks. The codes of shadow, port and link states are free (log entry 1). Neither changes anything but the reply queue (R173, R201,
R214). -/
def Obligations.TableAndPartStateReport : Prop :=
  ∀ (l : Side) (p : Packet) (s : State), s.Admits l → p.Plain →
    (p.s0 = 7 → ∀ x, sideField p.side = some x → ∃ data, exec (.tableState l p) s = .next (s.Answered l p.tag none data) ∧
      data.length = 86 ∧
      (∀ (tb : TableId) (c : TableCtl), c = (s.side x).tables.ctl.get tb →
        (data.drop (6 * tb.num)).take 6 =
          [BitVec.ofNat 16 c.active.num, Config.shadowStateCode c.shadow, if (c.bad c.active).isSome then 1 else 0,
           BitVec.ofNat 16 ((c.bad c.active).getD 0), if (c.bad c.active.other).isSome then 1 else 0,
           BitVec.ofNat 16 ((c.bad c.active.other).getD 0)]) ∧
      data.drop 78 =
        [if (s.side x).tables.commit.isSome then 1 else 0,
         (((s.side x).tables.commit.map PendingCommit.tables).getD 0).setWidth 16,
         if ((s.side x).tables.commit.bind PendingCommit.link).isSome then 1 else 0,
         BitVec.ofNat 16 (s.side x).tables.defectCount,
         BitVec.ofNat 16 (if x = .left then s.tableStore.leftShare else 4096 - s.tableStore.leftShare),
         BitVec.ofNat 16 (s.side x).dev.edits.length, if (s.side x).tables.defectLoss then 1 else 0,
         if (s.side x).tables.poisonCond then 1 else 0]) ∧
    (p.s0 = 9 → exec (.partState l p) s = .next (s.Answered l p.tag none
      ([0x5A24, 1, 1] ++ [Side.left, Side.right].flatMap (fun x =>
        [Config.portStateCode (s.side x).port.state, BitVec.ofNat 16 (s.side x).comp.view.code,
         BitVec.ofNat 16 (s.side x).comp.mode.code, BitVec.ofNat 16 (s.side x).comp.requested.code,
         BitVec.ofNat 16 (s.side x).comp.repeatCount, (s.side x).comp.frameCount.extractLsb' 0 16,
         (s.side x).comp.frameCount.extractLsb' 16 16]) ++
       [Side.left, Side.right].flatMap (fun x =>
        [Config.linkStateCode (s.link x).state, if (s.link x).beenUp then 1 else 0]) ++
       [if s.locks.layout then 1 else 0, if s.locks.sensor then 1 else 0, if s.locks.pan then 1 else 0,
        if s.locks.defects then 1 else 0])))

/-- READ_ITEM DEFECT_ENTRY: an index above 4095 is refused BAD_ARGUMENT, and one at or beyond the list's length reports the entry absent
with the length; neither reads a word. When both words of the entry are stored without error and no injection is armed, the reply reports
its row, column and class with the length, and only the reply queue changes. In general the two words are read as stored or as the
injection gives them, lower address first. Where both deliver data, the reply reports it, and each corrected word is written back, logged
and sets ERROR_CORRECTED. Where one is uncorrectable, the entry is lost: the directive is refused TABLE_ERROR with the index, the entries
after it move down, the resulting list is written from its first entry with correct check bits, stored errors in it replaced, and the
defect-loss flag and TABLE_POISONED with detail 13 are set (R156, R157, R164, R169 to R172, R213). That the other entries are rewritten
without being read, with free data where their stored words are uncorrectable, is the model's reading (log entry 9), and that the index is
one word of the REFUSED reply its choice (log entry 39); the places of the words of an entry, absent or present, are its reading (log entry
17). -/
def Obligations.DefectEntryReportsTheEntry : Prop :=
  ∀ (l x : Side) (p : Packet) (s : State), s.Admits l → p.Plain → p.s0 = 8 → sideField p.side = some x →
    (4095 < p.s1.toNat → exec (.defectEntry l p) s = .next (s.Answered l p.tag (some .badArgument) [])) ∧
    (p.s1.toNat ≤ 4095 → (s.side x).tables.defectCount ≤ p.s1.toNat →
      exec (.defectEntry l p) s = .next (s.Answered l p.tag none
        [0, 0, 0, 0, BitVec.ofNat 16 (s.side x).tables.defectCount])) ∧
    (∀ (a b : Word) (base : Nat), p.s1.toNat ≤ 4095 → p.s1.toNat < (s.side x).tables.defectCount →
      s.tableStore.injection = none → base = poolAddr x s.tableStore.leftShare p.s1.toNat →
      Mem.read tableDefault s.tableStore.mem base = encodeWord 22 a →
      Mem.read tableDefault s.tableStore.mem (base + 1) = encodeWord 22 b →
      exec (.defectEntry l p) s = .next (s.Answered l p.tag none
        [1, a, (b.extractLsb' 0 11).setWidth 16, (b.extractLsb' 14 2).setWidth 16,
         BitVec.ofNat 16 (s.side x).tables.defectCount])) ∧
    ∀ (base n : Nat) (w0 w1 : BitVec 22) (j0 j1 : Option Injection), p.s1.toNat ≤ 4095 → n = (s.side x).tables.defectCount →
      p.s1.toNat < n → base = poolAddr x s.tableStore.leftShare p.s1.toNat → s.TableReads base w0 j0 →
      { s with tableStore := { s.tableStore with injection := j0 } }.TableReads (base + 1) w1 j1 →
      ∃ t, exec (.defectEntry l p) s = .next t ∧
        t.tableStore.injection = j1 ∧ t.tableStore.log = logAfter 5 x s.tableStore.log [(base, w0), (base + 1, w1)] ∧
        (∀ y v, checkWord 5 w1 = .corrected y v → t.ReportsCorrected (base + 1)) ∧
        (∀ y v, checkWord 5 w0 = .corrected y v → (∀ y' v', checkWord 5 w1 ≠ .corrected y' v') → t.ReportsCorrected base) ∧
        ((∀ y v, checkWord 5 w0 ≠ .corrected y v ∧ checkWord 5 w1 ≠ .corrected y v) →
          t.corrCond = s.corrCond ∧ t.faults.get (.part .errorCorrected) = s.faults.get (.part .errorCorrected)) ∧
        (∀ a b, delivered 5 16 w0 = some a → delivered 5 16 w1 = some b →
          (t.link l).replies = (s.link l).replies ++ [.ready { tag := p.tag, reason := none, data :=
            [1, a, (b.extractLsb' 0 11).setWidth 16, (b.extractLsb' 14 2).setWidth 16, BitVec.ofNat 16 n] }] ∧
          t.sides = s.sides ∧
          ∀ c, Mem.read tableDefault t.tableStore.mem c =
            if c = base ∧ checkWord 5 w0 ≠ .clean then encodeWord 22 a
            else if c = base + 1 ∧ checkWord 5 w1 ≠ .clean then encodeWord 22 b
            else Mem.read tableDefault s.tableStore.mem c) ∧
        ((delivered 5 16 w0 : Option Word) = none ∨ (delivered 5 16 w1 : Option Word) = none →
          (t.link l).replies = (s.link l).replies ++ [.ready { tag := p.tag, reason := some .tableError, data := [p.s1] }] ∧
          t.side x = { s.side x with tables :=
            { (s.side x).tables with defectCount := n - 1, defectLoss := true, poisonCond := true } } ∧
          t.side x.other = s.side x.other ∧
          (t.faults.get (.side .tablePoisoned x)).state ≠ .clear ∧ (t.faults.get (.side .tablePoisoned x)).detail = 13 ∧
          -- the resulting list, written from its first entry (R169)
          (∀ first k at0 to0, first = poolAddr x s.tableStore.leftShare 0 → k < n → k ≠ p.s1.toNat → at0 = first + 2 * k →
            to0 = (if k < p.s1.toNat then at0 else at0 - 2) →
            (∃ v0 v1 : Word, Mem.read tableDefault t.tableStore.mem to0 = encodeWord 22 v0 ∧
              Mem.read tableDefault t.tableStore.mem (to0 + 1) = encodeWord 22 v1) ∧
            (∀ v : Word, delivered 5 16 (Mem.read tableDefault s.tableStore.mem at0) = some v →
              Mem.read tableDefault t.tableStore.mem to0 = encodeWord 22 v) ∧
            (∀ v : Word, delivered 5 16 (Mem.read tableDefault s.tableStore.mem (at0 + 1)) = some v →
              Mem.read tableDefault t.tableStore.mem (to0 + 1) = encodeWord 22 (v &&& 0xC7FF))) ∧
          (∀ first c, first = poolAddr x s.tableStore.leftShare 0 → (c < first ∨ first + 2 * (n - 1) ≤ c) →
            (c < base ∨ base + 2 ≤ c) →
            Mem.read tableDefault t.tableStore.mem c = Mem.read tableDefault s.tableStore.mem c)) ∧
        t.frameStore = s.frameStore ∧ t.locks = s.locks ∧ t.artic = s.artic ∧ t.tick = s.tick

/-! ## Table store -/

/-- An accepted LOAD_TABLE writes its words, with correct check bits, into the shadow's words from its offset on and into no other word of
the store; the shadow is LOADED, and its poison is cleared when the bad index lies within the words written. The active bank and the other
tables stay. A table of a lock class that is set is refused LOCKED, one named by a pending commit PENDING, with no effect (R154, R155,
R158, R165; that the reply repeats the words is the model's reading, log entry 16). A kind code above 6, an instance of a kind that has
only one, a count of 0 or above 32 or other than the number of words carried, and words beyond the table's end are refused BAD_ARGUMENT
before that, with no effect (R158). -/
def Obligations.LoadTableWritesTheShadowAlone : Prop :=
  (∀ (l x : Side) (tb : TableId) (p : Packet) (s : State) (offset count : Nat) (c : TableCtl), s.Admits l → p.Sized →
    sideField p.side = some x → tableField (p.s0.extractLsb' 0 4).toNat (p.s0.extractLsb' 8 2).toNat = some tb →
    offset = (p.s1.extractLsb' 0 8).toNat → count = (p.s1.extractLsb' 8 8).toNat → 1 ≤ count → count ≤ 32 →
    p.args.length = count → offset + count ≤ tb.words → c = (s.side x).tables.ctl.get tb →
    (s.locks.covers tb = true → exec (.loadTable l p) s = .next (s.Answered l p.tag (some .locked) [])) ∧
    (s.locks.covers tb = false → (s.side x).tables.commitNames tb = true →
      exec (.loadTable l p) s = .next (s.Answered l p.tag (some .pending) [])) ∧
    (s.locks.covers tb = false → (s.side x).tables.commitNames tb = false → ∃ t, exec (.loadTable l p) s = .next t ∧
      (∀ j w, p.args[j]? = some w →
        Mem.read tableDefault t.tableStore.mem (tableAddr x tb c.active.other (offset + j)) = encodeWord 22 w) ∧
      (∀ a, (a < tableAddr x tb c.active.other offset ∨ tableAddr x tb c.active.other offset + count ≤ a) →
        Mem.read tableDefault t.tableStore.mem a = Mem.read tableDefault s.tableStore.mem a) ∧
      ((t.side x).tables.ctl.get tb).active = c.active ∧ ((t.side x).tables.ctl.get tb).shadow = .loaded ∧
      ((t.side x).tables.ctl.get tb).bad c.active = c.bad c.active ∧
      (∀ j, c.bad c.active.other = some j → ((t.side x).tables.ctl.get tb).bad c.active.other =
        if offset ≤ j ∧ j < offset + count then none else some j) ∧
      (c.bad c.active.other = none → ((t.side x).tables.ctl.get tb).bad c.active.other = none) ∧
      (∀ u, u ≠ tb → (t.side x).tables.ctl.get u = (s.side x).tables.ctl.get u) ∧
      { (t.side x).tables with ctl := (s.side x).tables.ctl } = (s.side x).tables ∧
      { t.side x with tables := (s.side x).tables } = s.side x ∧ t.side x.other = s.side x.other ∧
      t.links = (s.Answered l p.tag none (p.args ++ [Config.shadowStateCode .loaded])).links ∧
      { t.tableStore with mem := s.tableStore.mem } = s.tableStore ∧
      { t with sides := s.sides, links := s.links, tableStore := s.tableStore } = s)) ∧
  ∀ (l : Side) (p : Packet) (s : State) (kind inst offset count : Nat), s.Admits l → kind = (p.s0.extractLsb' 0 4).toNat →
    inst = (p.s0.extractLsb' 8 2).toNat → offset = (p.s1.extractLsb' 0 8).toNat → count = (p.s1.extractLsb' 8 8).toNat →
    (6 < kind ∨ (2 ≤ kind ∧ inst ≠ 0) ∨ count = 0 ∨ 32 < count ∨ p.args.length ≠ count ∨
      ∃ tb, tableField kind inst = some tb ∧ tb.words < offset + count) →
    exec (.loadTable l p) s = .next (s.Answered l p.tag (some .badArgument) [])

/-- COMMIT of a set of tables whose shadows are LOADED and not poisoned, with no lock and no pending commit in its way, is answered by what
its read run finds: a failed check or an uncorrectable word refuses it with the table and the word index; if all pass, it becomes the
side's pending commit with a reservation while the port is RUNNING, and otherwise the role flags of exactly the named tables are inverted
at once, their new shadows are STALE, TABLE_POISONED ends if the side is then healed, and the reply is DONE with the set (R159 to R162,
R164, R197). The read run over shadows stored without error passes when every rule of R160 and R97 holds, changing nothing, and otherwise
finds the first table and the first rule that fails. Over one shadow whose rules hold, with one word that reads with an error, stored or
injected: corrected, the word is written back, logged and sets ERROR_CORRECTED, and the table passes; uncorrectable, the shadow becomes
poisoned at that word (R156, R171, R172). The places of the values in a REFUSED reply are the model's choice (log entry 39), and so are the
moments of the checks (log entry 21) and the word that some failures name (log entry 6). -/
def Obligations.CommitIsAnsweredByItsValidation : Prop :=
  ∀ (l x : Side) (p : Packet) (s v : State) (r : Verdict) (names : List TableId), s.Admits l → p.Plain →
    sideField p.side = some x → 0 < p.s0.toNat → p.s0.toNat < 8192 →
    names = TableId.all.filter (fun tb => p.s0.getLsbD tb.num) →
    (∀ tb ∈ names, s.locks.covers tb = false) → (s.side x).tables.commit = none →
    (∀ tb ∈ names, ((s.side x).tables.ctl.get tb).shadow = .loaded ∧
      ((s.side x).tables.ctl.get tb).bad ((s.side x).tables.ctl.get tb).active.other = none) →
    State.validate x names s = (r, v) →
    (∀ tb j, r = .badContent tb j → exec (.commit l p) s =
      .next (v.Answered l p.tag (some .badContent) [BitVec.ofNat 16 tb.num, BitVec.ofNat 16 j])) ∧
    (∀ tb j, r = .tableError tb j → exec (.commit l p) s =
      .next (v.Answered l p.tag (some .tableError) [BitVec.ofNat 16 tb.num, BitVec.ofNat 16 j])) ∧
    (r = .pass → (s.side x).port.state = .running → exec (.commit l p) s = .next { v with
      sides := v.sides.set x { v.side x with
        tables := { (v.side x).tables with commit := some { tables := p.s0.setWidth 13, link := some l } } },
      links := v.links.set l { v.link l with replies := (v.link l).replies ++ [.reserved p.tag x] } }) ∧
    (r = .pass → (s.side x).port.state ≠ .running → ∃ t, exec (.commit l p) s = .next t ∧
      (∀ tb, (t.side x).tables.ctl.get tb = if tb ∈ names then
        { (v.side x).tables.ctl.get tb with active := ((v.side x).tables.ctl.get tb).active.other, shadow := .stale }
        else (v.side x).tables.ctl.get tb) ∧
      (t.side x).tables.commit = none ∧ v.SwapEndsPoison t x ∧
      t.side x.other = v.side x.other ∧ t.tableStore = v.tableStore ∧
      (t.link l).replies = (v.link l).replies ++ [.ready { tag := p.tag, reason := none, data := [p.s0] }]) ∧
    -- what the read run finds
    ∀ (content : TableId → List Word) (shadow : TableId → Nat → Nat),
      (∀ tb j, shadow tb j = tableAddr x tb ((s.side x).tables.ctl.get tb).active.other j) →
      (∀ tb ∈ names, (content tb).length = tb.words) →
      (s.tableStore.injection = none →
        (∀ tb ∈ names, ∀ j w, (content tb)[j]? = some w →
          Mem.read tableDefault s.tableStore.mem (shadow tb j) = encodeWord 22 w) →
        ((∀ tb ∈ names, ∀ q ∈ tb.kind.rules (content tb), q.2) → r = .pass ∧ v = s) ∧
        (∀ tb ∈ names, ∀ pre q post, tb.kind.rules (content tb) = pre ++ q :: post → (∀ o ∈ pre, o.2) → ¬ q.2 →
          (∀ u ∈ names, u.num < tb.num → ∀ o ∈ u.kind.rules (content u), o.2) → r = .badContent tb q.1 ∧ v = s)) ∧
      (∀ (tb : TableId) (j a : Nat) (w : BitVec 22), names = [tb] → j < tb.words → a = shadow tb j →
        (∀ q ∈ tb.kind.rules (content tb), q.2) →
        (∀ k u, k ≠ j → (content tb)[k]? = some u →
          Mem.read tableDefault s.tableStore.mem (shadow tb k) = encodeWord 22 u) →
        ((s.tableStore.injection = none ∧ w = Mem.read tableDefault s.tableStore.mem a) ∨
          ∃ i, s.tableStore.injection = some i ∧ i.trigger = .address a ∧
            w = Mem.read tableDefault s.tableStore.mem a ^^^ (if i.kind = .single then 8 else 40)) →
        (∀ y d, checkWord 5 w = .corrected y d → (content tb)[j]? = some (dataOf 16 d) →
          r = .pass ∧ v.sides = s.sides ∧ v.ReportsCorrected a ∧
          v.tableStore.injection = none ∧ v.tableStore.log = logAfter 5 x s.tableStore.log [(a, w)] ∧
          ∀ c, Mem.read tableDefault v.tableStore.mem c =
            if c = a then encodeWord 22 (dataOf 16 d : Word) else Mem.read tableDefault s.tableStore.mem c) ∧
        (∀ y, checkWord 5 w = .uncorrectable y →
          r = .tableError tb j ∧ v.tableStore.mem = s.tableStore.mem ∧ v.tableStore.injection = none ∧
          v.tableStore.log = logAfter 5 x s.tableStore.log [(a, w)] ∧ v.faults = s.faults ∧ v.corrCond = s.corrCond ∧
          (∀ u, (v.side x).tables.ctl.get u = if u = tb then
            ((s.side x).tables.ctl.get tb).setBad ((s.side x).tables.ctl.get tb).active.other (some j)
            else (s.side x).tables.ctl.get u) ∧
          { v.side x with tables := { (v.side x).tables with ctl := (s.side x).tables.ctl } } = s.side x ∧
          v.side x.other = s.side x.other))

/-- The refusals of COMMIT in their order, each with no effect: a bit above 12 or no bit is BAD_ARGUMENT; a named table of a set lock class
LOCKED; a pending commit of the side PENDING; a STALE shadow WRONG_STATE with the lowest such table id; a poisoned shadow TABLE_ERROR with
the lowest such id and its bad index (R159, R211; the places of these values in the reply are the model's choice, log entry 39). -/
def Obligations.CommitIsRefusedInItsOrder : Prop :=
  ∀ (l x : Side) (p : Packet) (s : State) (names : List TableId), s.Admits l → p.Plain → sideField p.side = some x →
    names = TableId.all.filter (fun tb => p.s0.getLsbD tb.num) →
    ((p.s0 = 0 ∨ 8192 ≤ p.s0.toNat) → exec (.commit l p) s = .next (s.Answered l p.tag (some .badArgument) [])) ∧
    (0 < p.s0.toNat → p.s0.toNat < 8192 →
      ((∃ tb ∈ names, s.locks.covers tb = true) → exec (.commit l p) s = .next (s.Answered l p.tag (some .locked) [])) ∧
      ((∀ tb ∈ names, s.locks.covers tb = false) →
        ((s.side x).tables.commit ≠ none → exec (.commit l p) s = .next (s.Answered l p.tag (some .pending) [])) ∧
        ((s.side x).tables.commit = none →
          (∀ tb ∈ names, ((s.side x).tables.ctl.get tb).shadow = .stale →
            (∀ u ∈ names, u.num < tb.num → ((s.side x).tables.ctl.get u).shadow = .loaded) →
            exec (.commit l p) s = .next (s.Answered l p.tag (some .wrongState) [BitVec.ofNat 16 tb.num])) ∧
          ((∀ u ∈ names, ((s.side x).tables.ctl.get u).shadow = .loaded) →
            ∀ tb ∈ names, ∀ j, ((s.side x).tables.ctl.get tb).bad ((s.side x).tables.ctl.get tb).active.other = some j →
            (∀ u ∈ names, u.num < tb.num →
              ((s.side x).tables.ctl.get u).bad ((s.side x).tables.ctl.get u).active.other = none) →
            exec (.commit l p) s =
              .next (s.Answered l p.tag (some .tableError) [BitVec.ofNat 16 tb.num, BitVec.ofNat 16 j])))))

/-- An accepted DEFECT_ADD appends to the pending edit list of each side named an ADD edit for each site it accepts and leaves the other
edits and the other side's alone; no accepted site lies outside the sensor, a list of at most 64 edits stays so, and the reply gives for
each side the number accepted. Where the lists of the sides named are stored without error, each site is judged as R167 states against the
list with the edits pending and those accepted before it; the reply gives the index of the first site refused; the defect-loss flag is
clear, and TABLE_POISONED ends with it where no active bank is poisoned. One site in range, added to a side with an empty list, no edits,
no lost entry and a share, is accepted and nothing but the edit and the reply changes. DEFECTS locked, it is refused LOCKED. The last
clause but one says what an ADD edit makes of a list in site order. A count of 0 or above 16, another number of sites than the count, and a
class that is none of the three are refused BAD_ARGUMENT with no effect (R56, R57, R164, R167, R168). The places of the words in the reply
are the model's reading (log entry 17). -/
def Obligations.DefectAddAppendsTheAcceptedSites : Prop :=
  (∀ (l : Side) (xs : List Side) (p : Packet) (s : State), s.Admits l → p.Sized → sidesField p.side = some xs →
    1 ≤ p.s0.toNat → p.s0.toNat ≤ 16 → p.args.length = 2 * p.s0.toNat → (∀ e ∈ sitesOf p.args, e.cls ≠ 3) →
    (s.locks.defects = true → exec (.defectAdd l p) s = .next (s.Answered l p.tag (some .locked) [])) ∧
    (s.locks.defects = false → ∃ t data, exec (.defectAdd l p) s = .next t ∧
      (t.link l).replies = (s.link l).replies ++ [.ready { tag := p.tag, reason := none, data := data }] ∧
      data.length = 3 * xs.length ∧
      (∀ i x, xs[i]? = some x → ∃ new, (t.side x).dev.edits = (s.side x).dev.edits ++ new ∧ new.length ≤ p.s0.toNat ∧
        ((s.side x).dev.edits.length ≤ 64 → (t.side x).dev.edits.length ≤ 64) ∧
        data[3 * i]? = some (BitVec.ofNat 16 new.length) ∧
        (new.length = p.s0.toNat ↔ data[3 * i + 1]? = some 0) ∧
        ∀ d ∈ new, ∃ e ∈ sitesOf p.args, d = .add e.row e.col e.cls ∧ e.row ≤ 2559 ∧ e.col ≤ 1919) ∧
      (∀ x, x ∉ xs → t.side x = s.side x) ∧ t.frameStore = s.frameStore ∧ t.locks = s.locks) ∧
    (s.locks.defects = false → ∀ x e, xs = [x] → sitesOf p.args = [e] → e.row ≤ 2559 → e.col ≤ 1919 →
      (s.side x).tables.defectCount = 0 → (s.side x).tables.defectLoss = false → (s.side x).dev.edits = [] → 0 < s.shareOf x →
      exec (.defectAdd l p) s = .next ({ s with sides := s.sides.set x { s.side x with
        dev := { (s.side x).dev with edits := [.add e.row e.col e.cls] } } }.Answered l p.tag none [1, 0, 0])) ∧
    (s.locks.defects = false → ∀ es : Side → List DefectEntry, (∀ y ∈ xs, s.StoresList y (es y)) →
      ∃ t data, exec (.defectAdd l p) s = .next t ∧
      (t.link l).replies.getLast? = some (.ready { tag := p.tag, reason := none, data := data }) ∧
      ∀ i x, xs[i]? = some x → ∃ accepted : Nat → Bool,
        (∀ k e held list, (sitesOf p.args)[k]? = some e →
          held = (s.side x).dev.edits ++
            (((sitesOf p.args).take k).zipIdx.filter (fun q => accepted q.2)).map (fun q => DefectEdit.add q.1.row q.1.col q.1.cls) →
          list = applyEdits (es x) held →
          (accepted k = true ↔ e.row ≤ 2559 ∧ e.col ≤ 1919 ∧ held.length < 64 ∧
            ((∃ d ∈ list, d.row = e.row ∧ d.col = e.col) ∨ list.length < s.shareOf x))) ∧
        (t.side x).dev.edits = (s.side x).dev.edits ++
          ((sitesOf p.args).zipIdx.filter (fun q => accepted q.2)).map (fun q => DefectEdit.add q.1.row q.1.col q.1.cls) ∧
        (∀ k, k < p.s0.toNat → accepted k = false → (∀ m, m < k → accepted m = true) →
          data[3 * i + 1]? = some 1 ∧ data[3 * i + 2]? = some (BitVec.ofNat 16 k)) ∧
        ((∀ k, k < p.s0.toNat → accepted k = true) → data[3 * i + 1]? = some 0 ∧ data[3 * i + 2]? = some 0) ∧
        (t.side x).tables.defectLoss = false ∧ (t.side x).tables.defectCount = (s.side x).tables.defectCount ∧
        (((s.side x).tables.defectLoss = true ∧ (s.side x).tables.poisonCond = true ∧
            ∀ tb, ((s.side x).tables.ctl.get tb).bad ((s.side x).tables.ctl.get tb).active = none) →
          (t.side x).tables.poisonCond = false ∧ (t.faults.get (.side .tablePoisoned x)).state = .clear) ∧
        (¬ ((s.side x).tables.defectLoss = true ∧ (s.side x).tables.poisonCond = true ∧
            ∀ tb, ((s.side x).tables.ctl.get tb).bad ((s.side x).tables.ctl.get tb).active = none) →
          (t.side x).tables.poisonCond = (s.side x).tables.poisonCond ∧
          t.faults.get (.side .tablePoisoned x) = s.faults.get (.side .tablePoisoned x))) ∧
    ∀ (es out : List DefectEntry) (row col : Nat) (cls : BitVec 2),
      es.Pairwise (fun a b => a.row < b.row ∨ (a.row = b.row ∧ a.col < b.col)) → out = applyEdit es (.add row col cls) →
      out.Pairwise (fun a b => a.row < b.row ∨ (a.row = b.row ∧ a.col < b.col)) ∧
      ∀ e, e ∈ out ↔ (e ∈ es ∧ ¬ (e.row = row ∧ e.col = col)) ∨
        (e.row = row ∧ e.col = col ∧
          ((e.cls = cls ∧ ∀ d ∈ es, ¬ (d.row = row ∧ d.col = col)) ∨
            ∃ d ∈ es, d.row = row ∧ d.col = col ∧ e.cls.toNat = min d.cls.toNat cls.toNat))) ∧
  ∀ (l : Side) (p : Packet) (s : State), s.Admits l →
    (p.s0 = 0 ∨ 16 < p.s0.toNat ∨ p.args.length ≠ 2 * p.s0.toNat ∨
      ∃ k w, p.args[2 * k + 1]? = some w ∧ w.extractLsb' 14 2 = 3) →
    exec (.defectAdd l p) s = .next (s.Answered l p.tag (some .badArgument) [])

/-- An accepted DEFECT_REMOVE appends REMOVE edits for the sites it accepts, reads no class, and leaves the other side alone. Where the
lists of the sides named are stored without error, a site is accepted when it stands on the list with the edits pending and those accepted
before it; the reply gives the index of the first site refused; the defect-loss flag is clear, and TABLE_POISONED ends with it where no
active bank is poisoned. On a side with an empty list, no edits and no lost entry every site is refused, the reply is DONE with none
accepted and index 0, and nothing else changes. One site that a pending ADD alone has put on the projected list is accepted, and nothing
but the edit and the reply changes. DEFECTS locked, it is refused LOCKED. A count of 0 or above 16 and another number of sites than the
count are refused BAD_ARGUMENT with no effect. The last clause but one says what a REMOVE edit makes of a list (R56, R57, R164, R168). The
places of the words in the reply are the model's reading (log entry 17). -/
def Obligations.DefectRemoveAppendsTheAcceptedSites : Prop :=
  (∀ (l : Side) (xs : List Side) (p : Packet) (s : State), s.Admits l → p.Sized → sidesField p.side = some xs →
    1 ≤ p.s0.toNat → p.s0.toNat ≤ 16 → p.args.length = 2 * p.s0.toNat →
    (s.locks.defects = true → exec (.defectRemove l p) s = .next (s.Answered l p.tag (some .locked) [])) ∧
    (s.locks.defects = false → ∃ t data, exec (.defectRemove l p) s = .next t ∧
      (t.link l).replies = (s.link l).replies ++ [.ready { tag := p.tag, reason := none, data := data }] ∧
      data.length = 3 * xs.length ∧
      (∀ i x, xs[i]? = some x → ∃ new, (t.side x).dev.edits = (s.side x).dev.edits ++ new ∧ new.length ≤ p.s0.toNat ∧
        ((s.side x).dev.edits.length ≤ 64 → (t.side x).dev.edits.length ≤ 64) ∧
        data[3 * i]? = some (BitVec.ofNat 16 new.length) ∧
        ∀ d ∈ new, ∃ e ∈ sitesOf p.args, d = .remove e.row e.col ∧ e.row ≤ 2559 ∧ e.col ≤ 1919) ∧
      (∀ x, x ∉ xs → t.side x = s.side x) ∧ t.frameStore = s.frameStore ∧ t.locks = s.locks) ∧
    (s.locks.defects = false → ∀ x, xs = [x] → (s.side x).tables.defectCount = 0 → (s.side x).tables.defectLoss = false →
      (s.side x).dev.edits = [] → exec (.defectRemove l p) s = .next (s.Answered l p.tag none [0, 1, 0])) ∧
    (s.locks.defects = false → ∀ x e c, xs = [x] → sitesOf p.args = [e] → e.row ≤ 2559 → e.col ≤ 1919 →
      (s.side x).tables.defectCount = 0 → (s.side x).tables.defectLoss = false → (s.side x).dev.edits = [.add e.row e.col c] →
      exec (.defectRemove l p) s = .next ({ s with sides := s.sides.set x { s.side x with
        dev := { (s.side x).dev with edits := [.add e.row e.col c, .remove e.row e.col] } } }.Answered l p.tag none [1, 0, 0])) ∧
    (s.locks.defects = false → ∀ es : Side → List DefectEntry, (∀ y ∈ xs, s.StoresList y (es y)) →
      ∃ t data, exec (.defectRemove l p) s = .next t ∧
      (t.link l).replies.getLast? = some (.ready { tag := p.tag, reason := none, data := data }) ∧
      ∀ i x, xs[i]? = some x → ∃ accepted : Nat → Bool,
        (∀ k e held list, (sitesOf p.args)[k]? = some e →
          held = (s.side x).dev.edits ++
            (((sitesOf p.args).take k).zipIdx.filter (fun q => accepted q.2)).map (fun q => DefectEdit.remove q.1.row q.1.col) →
          list = applyEdits (es x) held →
          (accepted k = true ↔ e.row ≤ 2559 ∧ e.col ≤ 1919 ∧ held.length < 64 ∧
            ∃ d ∈ list, d.row = e.row ∧ d.col = e.col)) ∧
        (t.side x).dev.edits = (s.side x).dev.edits ++
          ((sitesOf p.args).zipIdx.filter (fun q => accepted q.2)).map (fun q => DefectEdit.remove q.1.row q.1.col) ∧
        (∀ k, k < p.s0.toNat → accepted k = false → (∀ m, m < k → accepted m = true) →
          data[3 * i + 1]? = some 1 ∧ data[3 * i + 2]? = some (BitVec.ofNat 16 k)) ∧
        ((∀ k, k < p.s0.toNat → accepted k = true) → data[3 * i + 1]? = some 0 ∧ data[3 * i + 2]? = some 0) ∧
        (t.side x).tables.defectLoss = false ∧ (t.side x).tables.defectCount = (s.side x).tables.defectCount ∧
        (((s.side x).tables.defectLoss = true ∧ (s.side x).tables.poisonCond = true ∧
            ∀ tb, ((s.side x).tables.ctl.get tb).bad ((s.side x).tables.ctl.get tb).active = none) →
          (t.side x).tables.poisonCond = false ∧ (t.faults.get (.side .tablePoisoned x)).state = .clear) ∧
        (¬ ((s.side x).tables.defectLoss = true ∧ (s.side x).tables.poisonCond = true ∧
            ∀ tb, ((s.side x).tables.ctl.get tb).bad ((s.side x).tables.ctl.get tb).active = none) →
          (t.side x).tables.poisonCond = (s.side x).tables.poisonCond ∧
          t.faults.get (.side .tablePoisoned x) = s.faults.get (.side .tablePoisoned x))) ∧
    ∀ (es : List DefectEntry) (row col : Nat),
      (applyEdit es (.remove row col)).Sublist es ∧
      ∀ e, e ∈ applyEdit es (.remove row col) ↔ e ∈ es ∧ ¬ (e.row = row ∧ e.col = col)) ∧
  ∀ (l : Side) (p : Packet) (s : State), s.Admits l → (p.s0 = 0 ∨ 16 < p.s0.toNat ∨ p.args.length ≠ 2 * p.s0.toNat) →
    exec (.defectRemove l p) s = .next (s.Answered l p.tag (some .badArgument) [])

/-- DEFECT_SPLIT in its order of checks: a share that is no multiple of 256 or exceeds 4096 is BAD_ARGUMENT, the DEFECTS lock LOCKED, a
list or an edit list that is not empty WRONG_STATE; otherwise the LEFT share is the given one and nothing else but the reply changes
(R166). LOCK of a class code sets the class's flag and reports the four flags, unless a pending commit names a table of the class or, for
DEFECTS, a side holds pending edits, which is refused PENDING; a code above 3 is BAD_ARGUMENT (R165, R206). Over all steps, until the next
power-on reset: a lock flag that is set stays set, both banks of every table of a locked class keep their contents, and with DEFECTS locked
the split and the empty edit lists stay and each defect list loses entries at most (R165). -/
def Obligations.DefectSplitAndLockFollowTheirChecks : Prop :=
  (∀ (l : Side) (p : Packet) (s : State), s.Admits l → p.Plain →
     ((p.s0.toNat % 256 ≠ 0 ∨ 4096 < p.s0.toNat) →
       exec (.defectSplit l p) s = .next (s.Answered l p.tag (some .badArgument) [])) ∧
     (p.s0.toNat % 256 = 0 → p.s0.toNat ≤ 4096 →
       (s.locks.defects = true → exec (.defectSplit l p) s = .next (s.Answered l p.tag (some .locked) [])) ∧
       (s.locks.defects = false → (∃ x, (s.side x).tables.defectCount ≠ 0 ∨ (s.side x).dev.edits ≠ []) →
         exec (.defectSplit l p) s = .next (s.Answered l p.tag (some .wrongState) [])) ∧
       (s.locks.defects = false → (∀ x, (s.side x).tables.defectCount = 0 ∧ (s.side x).dev.edits = []) →
         exec (.defectSplit l p) s =
           .next ({ s with tableStore := { s.tableStore with leftShare := p.s0.toNat } }.Answered l p.tag none []))) ∧
     (3 < p.s0.toNat → exec (.lock l p) s = .next (s.Answered l p.tag (some .badArgument) [])) ∧
     (∀ c tb, (p.s0 = 0 ∧ c = .layout ∧ tb = .layout) ∨ (p.s0 = 1 ∧ c = .sensor ∧ tb = .sensor) ∨
         (p.s0 = 2 ∧ c = .pan ∧ tb = .pan) →
       ((∃ x, (s.side x).tables.commitNames tb = true) → exec (.lock l p) s = .next (s.Answered l p.tag (some .pending) [])) ∧
       ((∀ x, (s.side x).tables.commitNames tb = false) → ∃ k, k = s.locks.lock c ∧ k.get c = true ∧
         (∀ d, d ≠ c → k.get d = s.locks.get d) ∧ exec (.lock l p) s = .next ({ s with locks := k }.Answered l p.tag none
           [if k.layout then 1 else 0, if k.sensor then 1 else 0, if k.pan then 1 else 0, if k.defects then 1 else 0]))) ∧
     (p.s0 = 3 →
       ((∃ x, (s.side x).dev.edits ≠ []) → exec (.lock l p) s = .next (s.Answered l p.tag (some .pending) [])) ∧
       ((∀ x, (s.side x).dev.edits = []) → exec (.lock l p) s =
         .next ({ s with locks := { s.locks with defects := true } }.Answered l p.tag none
           [if s.locks.layout then 1 else 0, if s.locks.sensor then 1 else 0, if s.locks.pan then 1 else 0, 1])))) ∧
  -- the locks over all steps (R165)
  ∀ s t : State, step s = .next t → s.pending.head? ≠ some .powerOnReset →
    (∀ c, s.locks.get c = true → t.locks.get c = true) ∧
    (∀ x tb p j, s.locks.covers tb = true → j < tb.words →
      (s.tableStore.injection = none ∨
        checkWord 5 (Mem.read tableDefault s.tableStore.mem (tableAddr x tb p j)) = .clean) →
      (delivered 5 16 (Mem.read tableDefault t.tableStore.mem (tableAddr x tb p j)) : Option Word) =
        delivered 5 16 (Mem.read tableDefault s.tableStore.mem (tableAddr x tb p j))) ∧
    (s.locks.defects = true → (∀ x, (s.side x).dev.edits = []) →
      t.tableStore.leftShare = s.tableStore.leftShare ∧ (∀ x, (t.side x).dev.edits = []) ∧
      ∀ es : Side → List DefectEntry, s.PoolLawful → (∀ x, s.HoldsList x (es x)) →
        ∀ x, ∃ kept, t.HoldsList x kept ∧ kept.Sublist (es x))

/-! ## Settings of a side -/

/-- SET_PROFILE_MODE for each side named: FORCE b makes the mode FORCED b with b scheduled, AUTO makes it AUTO with bank 0 scheduled if the
current bank is 3 and none otherwise; both clear the dwell count and the direction, and leave the current bank. The reply reports mode and
scheduled bank; the code of the mode is free (log entry 1) and the places of the words are the model's reading (log entry 17). A bank above
3 is BAD_ARGUMENT, and so is a mode that is neither (R46, R47, R202, R214); that a command whose mode is the other row's is refused so is
the model's choice (log entry 11). -/
def Obligations.SetProfileModeSchedulesABank : Prop :=
  (∀ (l : Side) (xs : List Side) (p : Packet) (s : State), s.Admits l → p.Plain → sidesField p.side = some xs →
    (p.s0 = 1 → 3 < p.s1.toNat → exec (.setProfileModeForce l p) s = .next (s.Answered l p.tag (some .badArgument) [])) ∧
    (p.s0 = 1 → ∀ b : Bank, b.val = p.s1.toNat → ∃ t, exec (.setProfileModeForce l p) s = .next t ∧
      (∀ x, t.side x = if x ∈ xs then { s.side x with
        exposure := { (s.side x).exposure with mode := .forced b, scheduled := some b, dwell := 0, direction := none } }
        else s.side x) ∧
      t.links = (s.Answered l p.tag none
        (xs.flatMap (fun _ => [Config.profileModeCode (.forced b), 1, BitVec.ofNat 16 b.val]))).links ∧
      { t with sides := s.sides, links := s.links } = s) ∧
    (p.s0 = 0 → ∃ t, exec (.setProfileModeAuto l p) s = .next t ∧
      (∀ x, t.side x = if x ∈ xs then { s.side x with
        exposure := { (s.side x).exposure with
          mode := .auto, scheduled := if (s.side x).exposure.bank = 3 then some 0 else none, dwell := 0, direction := none } }
        else s.side x) ∧
      t.links = (s.Answered l p.tag none
        (xs.flatMap (fun x => [Config.profileModeCode .auto, if (s.side x).exposure.bank = 3 then 1 else 0, 0]))).links ∧
      { t with sides := s.sides, links := s.links } = s)) ∧
  ∀ (l : Side) (p : Packet) (s : State), s.Admits l →
    (p.s0 ≠ 1 → exec (.setProfileModeForce l p) s = .next (s.Answered l p.tag (some .badArgument) [])) ∧
    (p.s0 ≠ 0 → exec (.setProfileModeAuto l p) s = .next (s.Answered l p.tag (some .badArgument) []))

/-- AIM replaces the aim offsets of each side named by the given ones, clamped to the side's own limits, and reports them; TRIM replaces
the trim by the given value clamped to -256..256 and reports it; OUTPUT_MODE replaces the requested mode and reports it with the mode in
force, and refuses a code above 2. Each changes nothing else but the reply queue (R48, R105, R134, R203). That TRIM reports its value once
for BOTH, and that AIM and OUTPUT_MODE report LEFT's values before RIGHT's, is the model's reading (log entry 17). -/
def Obligations.AimTrimAndOutputModeReplaceTheirValues : Prop :=
  ∀ (l : Side) (xs : List Side) (p : Packet) (s : State), s.Admits l → p.Plain → sidesField p.side = some xs →
    (∃ t, exec (.aim l p) s = .next t ∧
      (∀ x, t.side x = if x ∈ xs then { s.side x with framing := { (s.side x).framing with
        aimDx := max (-(s.layoutOf x).axMax) (min p.s0.toInt (s.layoutOf x).axMax),
        aimDy := max (-(s.layoutOf x).ayMax) (min p.s1.toInt (s.layoutOf x).ayMax) } } else s.side x) ∧
      t.links = (s.Answered l p.tag none (xs.flatMap (fun x =>
        [BitVec.ofInt 16 (t.side x).framing.aimDx, BitVec.ofInt 16 (t.side x).framing.aimDy]))).links ∧
      { t with sides := s.sides, links := s.links } = s) ∧
    (∃ t, exec (.trim l p) s = .next t ∧
      (∀ x, t.side x = if x ∈ xs then
        { s.side x with exposure := { (s.side x).exposure with trim := max (-256) (min p.s0.toInt 256) } } else s.side x) ∧
      t.links = (s.Answered l p.tag none [BitVec.ofInt 16 (max (-256) (min p.s0.toInt 256))]).links ∧
      { t with sides := s.sides, links := s.links } = s) ∧
    (∀ m : OutputMode, m.code = p.s0.toNat → ∃ t, exec (.outputMode l p) s = .next t ∧
      (∀ x, t.side x = if x ∈ xs then { s.side x with comp := { (s.side x).comp with requested := m } } else s.side x) ∧
      t.links = (s.Answered l p.tag none
        (xs.flatMap (fun x => [p.s0, BitVec.ofNat 16 (s.side x).comp.mode.code]))).links ∧
      { t with sides := s.sides, links := s.links } = s) ∧
    (2 < p.s0.toNat → exec (.outputMode l p) s = .next (s.Answered l p.tag (some .badArgument) []))

/-- ARTICULATION, whatever its side field, puts the angle clamped to -900..900 and the present tick into the articulation record, clears
the stale flag, ends PAN_INPUT_STALE if it was stale, and reports the clamped angle (R99). -/
def Obligations.ArticulationRenewsTheRecord : Prop :=
  ∀ (l : Side) (p : Packet) (s : State), s.Admits l → p.Plain → ∃ t, exec (.articulation l p) s = .next t ∧
    t.artic = { angle := max (-900) (min p.s0.toInt 900), tick := s.tick, stale := false } ∧
    (s.artic.stale = true → (t.faults.get (.part .panInputStale)).state = .clear) ∧
    (s.artic.stale = false → t.faults = s.faults ∧ (t.link l.other) = s.link l.other) ∧
    (∀ i, i ≠ .part .panInputStale → t.faults.get i = s.faults.get i) ∧
    (t.link l).replies = (s.link l).replies ++
      [.ready { tag := p.tag, reason := none, data := [BitVec.ofInt 16 (max (-900) (min p.s0.toInt 900))] }] ∧
    { t with artic := s.artic, links := s.links, faults := s.faults } = s

/-- SENSOR_WRITE appends one SERVICE write to the buffer of each side named and reports the group numbers they take; an IDLE bus with an
empty buffer starts its first attempt on it at once, and a SENDING bus goes on with its head. A full buffer of any side named refuses the
whole with NO_SPACE and no effect (R15, R17, R18, R205). That the reply has a word for each side named is the model's reading (log entry
17). -/
def Obligations.SensorWriteQueuesAServiceWrite : Prop :=
  ∀ (l : Side) (xs : List Side) (p : Packet) (s : State), s.Admits l → p.Plain → sidesField p.side = some xs →
    ((∃ x ∈ xs, 16 ≤ (s.side x).bus.buffer.length) →
      exec (.sensorWrite l p) s = .next (s.Answered l p.tag (some .noSpace) [])) ∧
    ((∀ x ∈ xs, (s.side x).bus.buffer.length < 16) → ∃ t, exec (.sensorWrite l p) s = .next t ∧
      (t.link l).replies = (s.link l).replies ++ [.ready
        { tag := p.tag, reason := none, data := xs.map (fun x => (s.side x).bus.groupCounter.setWidth 16) }] ∧
      (∀ x ∈ xs, (t.side x).bus.groupCounter = (s.side x).bus.groupCounter + 1 ∧
        (t.side x).bus.buffer.map (fun w => (w.register, w.value, w.origin, w.group)) =
          (s.side x).bus.buffer.map (fun w => (w.register, w.value, w.origin, w.group)) ++
            [(p.s0, p.s1, Origin.service, (s.side x).bus.groupCounter)] ∧
        ((s.side x).bus.state = .sending → (t.side x).bus.state = .sending ∧
          (t.side x).bus.transaction = (s.side x).bus.transaction ∧ (t.side x).bus.attempts = (s.side x).bus.attempts) ∧
        ((s.side x).bus.state = .idle → (s.side x).bus.buffer = [] → (t.side x).bus.state = .sending ∧
          (t.side x).bus.attempts = 1 ∧ (t.side x).bus.timerStart = s.tick ∧
          (t.side x).bus.transaction.map (fun w => (w.register, w.value)) = some (p.s0, p.s1)) ∧
        { t.side x with bus := (s.side x).bus, tables := (s.side x).tables } = s.side x) ∧
      (∀ x, x ∉ xs → t.side x = s.side x) ∧ t.frameStore = s.frameStore ∧ t.locks = s.locks ∧ t.artic = s.artic)

/-- RESTART_SIDE restarts each side named, block by block, and leaves the other side, the DRAM, the articulation record, the locks and the
record PAN_INPUT_STALE alone; ERROR_CORRECTED, corr_cond and the words of the table store may change by the reads of a defect list with
pending edits (R156, R169): the port is SEARCHING and CLOSED with F_cur none and its temperature kept, the history empty, the exposure unit
without a record and with trim 0, the developer IDLE without edits, the glare levels 0, the pan at 0, every slot FREE with its DAMAGED flag
kept, the view STARTING, the pending commit carried out with its DONE reply, the pending edits applied to the list, the composer's
conditions and echo counts 0 with its content that of STARTING, the bus with at most the write in progress, which is left to finish its
attempt, and the fault records CLEAR but for a link fault still present and a defect entry lost at the restart (R14, R22, R51, R78, R94,
R108, R116, R123, R151, R174, R190, R193, R208). That the kept malformation index stays is the model's choice (log entry 3), and that LEFT
is restarted before RIGHT its reading (log entry 19). -/
def Obligations.RestartSideRestartsEveryBlock : Prop :=
  ∀ (l : Side) (xs : List Side) (p : Packet) (s : State), s.Admits l → p.Plain → sidesField p.side = some xs →
    ∃ t, exec (.restartSide l p) s = .next t ∧
      (∀ x ∈ xs,
        (t.side x).port = { (s.side x).port with
          state := .searching, phase := .closed, lineCount := 0, statusLines := [], badCount := 0, goodCount := 0, fcur := none,
          frameCond := false, lossCond := false, hotCond := false } ∧
        (t.side x).history = [] ∧
        (t.side x).exposure = { Exposure.reset with
          mode := (s.side x).exposure.mode,
          bank := match (s.side x).exposure.mode with
            | .auto => 0
            | .forced b => b } ∧
        (t.side x).dev.frame = none ∧ (t.side x).dev.edits = [] ∧ (t.side x).dev.zones = zeroZones ∧
        (t.side x).dev.copies = (s.side x).dev.copies ∧
        (t.side x).glare = Glare.reset ∧
        (t.side x).framing =
          { (s.side x).framing with panTarget := 0, panCur := 0, windows := none } ∧
        (∀ n, ((t.side x).store.slots.get n).state = .free ∧ ((t.side x).store.slots.get n).content = none ∧
          ((t.side x).store.slots.get n).damaged = ((s.side x).store.slots.get n).damaged) ∧
        (t.side x).store.cleanCount = 0 ∧ (t.side x).store.fseCond = false ∧
        (t.side x).comp = { (s.side x).comp with
          view := .starting, repeatCount := 0, startCount := 0, recovery := 0, staleCond := false, lostCond := false,
          freezeCond := false, silence := 0, lagStrikes := 0, goodChecks := 0,
          content := (s.side x).comp.content.map (fun _ =>
            if (s.side x).comp.mode = .pattern then Content.colourBars else .viewStarting) } ∧
        ((s.side x).bus.state = .idle → (t.side x).bus = { (s.side x).bus with buffer := [], busCond := false }) ∧
        ((s.side x).bus.state = .sending → (t.side x).bus =
          { (s.side x).bus with buffer := (s.side x).bus.buffer.take 1, busCond := false, finishing := true }) ∧
        -- the pending commit (R162, R174)
        (t.side x).tables.commit = none ∧
        (∀ tb, (t.side x).tables.ctl.get tb = if ((s.side x).tables.commit.map (fun c => c.tables.getLsbD tb.num)) = some true
          then ((s.side x).tables.ctl.get tb).swapped else (s.side x).tables.ctl.get tb) ∧
        -- the pending edits (R57, R78, R169, R174)
        ((s.side x).dev.edits = [] → (t.side x).tables.defectCount = (s.side x).tables.defectCount ∧
          (t.side x).tables.defectLoss = (s.side x).tables.defectLoss) ∧
        ((s.side x).dev.edits ≠ [] → s.NoCountTrigger →
          (∀ y ∈ xs, (s.side y).tables.defectCount ≤ s.shareOf y ∧
            (applyEdits (s.entriesRead y) (s.side y).dev.edits).length ≤ s.shareOf y) →
          s.tableStore.leftShare ≤ 4096 →
          s.TakesEdits t x ∧
          ((s.entriesRead x).length = (s.side x).tables.defectCount →
            (t.side x).tables.poisonCond = false ∧ (t.faults.get (.side .tablePoisoned x)).state = .clear) ∧
          ((s.entriesRead x).length < (s.side x).tables.defectCount →
            (t.faults.get (.side .tablePoisoned x)).state = .active ∧
            (t.faults.get (.side .tablePoisoned x)).detail = 13)) ∧
        (∀ c, c ≠ .displayLinkDown → c ≠ .tablePoisoned → (t.faults.get (.side c x)).state = .clear) ∧
        ((s.side x).dev.edits = [] → (t.faults.get (.side .tablePoisoned x)).state = .clear ∧
          (t.side x).tables.poisonCond = false) ∧
        ((s.link x).state = .up → (t.faults.get (.side .displayLinkDown x)).state = .clear ∧ (t.link x).linkCond = false) ∧
        ((s.link x).state ≠ .up → (s.link x).beenUp = true →
          (t.faults.get (.side .displayLinkDown x)).state = .active ∧ (t.link x).linkCond = true ∧
          (t.faults.get (.side .displayLinkDown x)).detail = (s.faults.get (.side .displayLinkDown x)).detail)) ∧
      (∀ x, x ∉ xs → t.side x = s.side x ∧ ∀ c, t.faults.get (.side c x) = s.faults.get (.side c x)) ∧
      t.faults.get (.part .panInputStale) = s.faults.get (.part .panInputStale) ∧
      (∀ k, (t.link k).replies = s.repliesSwapped xs k ++
        (if k = l then [.ready { tag := p.tag, reason := none, data := [] }] else [])) ∧
      ((∀ x ∈ xs, (s.side x).dev.edits = []) → t.tableStore = s.tableStore) ∧
      (∀ x, (t.link x).state = (s.link x).state ∧ (t.link x).mask = (s.link x).mask) ∧
      t.frameStore = s.frameStore ∧ t.artic = s.artic ∧ t.locks = s.locks ∧ t.tick = s.tick

/-! ## Fault table, error logs and protection -/

/-- A setting by the cases of R177 and an end by those of R178, for every record and every state: the record's state, count, ticks and
detail, and a notice by the routing of R183 exactly when the state changes, kept in its place if one is queued already (R184). Over all
steps, a record that was ACKED and is ACTIVE after the step has passed through CLEAR in it (R179): it is a new occurrence, counted and
dated. That it is then one of TABLE_POISONED or, at a side restart, of DISPLAY_LINK_DOWN is deduced; no rule states it. These are the
records that one event can both end or clear and set: R164, R168 and R169 let a swap or a cleared defect-loss flag end TABLE_POISONED and a
read of the same event set it, a restart clears it and its list read may set it (R169, R190), and R193 sets DISPLAY_LINK_DOWN after the
clearing of R190. -/
def Obligations.ReportsChangeARecordByItsState : Prop :=
  -- from ACKED to ACTIVE only through CLEAR, over all steps (R179)
  (∀ (s t : State) (i : RecordId), step s = .next t → (s.faults.get i).state = .acked → (t.faults.get i).state = .active →
    (t.faults.get i).count = min ((s.faults.get i).count + 1) 255 ∧ (t.faults.get i).lastChange = some t.tick ∧
    ∃ x, i = .side .tablePoisoned x ∨
      (i = .side .displayLinkDown x ∧ ∃ l p, s.pending.head? = some (.restartSide l p))) ∧
  ∀ (s : State) (i : RecordId) (d : Word) (r : FaultRecord), r = s.faults.get i →
    (r.state = .clear → (s.raise i d).faults.get i =
      { state := .active, count := min (r.count + 1) 255, firstActive := if r.count = 0 then some s.tick else r.firstActive,
        lastChange := some s.tick, detail := d }) ∧
    (r.state ≠ .clear → (s.raise i d).faults.get i = { r with detail := d } ∧ (s.raise i d).links = s.links) ∧
    (r.state ≠ .clear → (s.endFault i).faults.get i = { r with state := .clear, lastChange := some s.tick }) ∧
    (r.state = .clear → s.endFault i = s) ∧
    (∀ j, j ≠ i → (s.raise i d).faults.get j = s.faults.get j ∧ (s.endFault i).faults.get j = s.faults.get j) ∧
    ∀ (l : Side) (t : State), (t = s.raise i d ∧ r.state = .clear) ∨ (t = s.endFault i ∧ r.state ≠ .clear) →
      ((s.link l).mask.getLsbD i.classCode = true ∧
        ((∃ c x, i = .side c x ∧ (((s.link x).state = .up ∧ l = x) ∨
            ((s.link x).state ≠ .up ∧ l = x.other ∧ (s.link l).state = .up))) ∨
          (∃ c, i = .part c ∧ (s.link l).state = .up)) →
        t.link l = { s.link l with
          notices := if i ∈ (s.link l).notices then (s.link l).notices else (s.link l).notices ++ [i] }) ∧
      (¬ ((s.link l).mask.getLsbD i.classCode = true ∧
        ((∃ c x, i = .side c x ∧ (((s.link x).state = .up ∧ l = x) ∨
            ((s.link x).state ≠ .up ∧ l = x.other ∧ (s.link l).state = .up))) ∨
          (∃ c, i = .part c ∧ (s.link l).state = .up))) →
        t.link l = s.link l)

/-- ACK_FAULT of the record that its class code and side name: an ACTIVE record is ACKED with the present tick as its last change, and the
reply reports index, state, count and detail; a CLEAR or ACKED one is refused NOT_ACTIVE, and a class code above 12 or a side class with
BOTH BAD_ARGUMENT, with no effect. NOTICE_MASK replaces the mask of each link named and reports it, and refuses a bit above 12 (R179, R182,
R204). That its reply has a word for each link named is the model's reading (log entry 17). -/
def Obligations.AckFaultAndNoticeMaskActOnTheirTargets : Prop :=
  (∀ (l : Side) (p : Packet) (s : State), s.Admits l → p.Plain →
    (∀ i : RecordId, p.s0.toNat = i.classCode → (∀ c x, i = .side c x → sideField p.side = some x) →
      ((s.faults.get i).state ≠ .active → exec (.ackFault l p) s = .next (s.Answered l p.tag (some .notActive) [])) ∧
      ((s.faults.get i).state = .active → ∃ t, exec (.ackFault l p) s = .next t ∧
        t.faults = s.faults.set i { s.faults.get i with state := .acked, lastChange := some s.tick } ∧
        (t.link l).replies = (s.link l).replies ++ [.ready
          { tag := p.tag, reason := none,
            data := [BitVec.ofNat 16 i.index, 2, BitVec.ofNat 16 (s.faults.get i).count, (s.faults.get i).detail] }] ∧
        (∀ x, s.routesTo i x = true → admits (s.link x).mask i = true → i ∈ (t.link x).notices) ∧
        { t with links := s.links, faults := s.faults } = s)) ∧
    (∀ xs, sidesField p.side = some xs →
      (8192 ≤ p.s0.toNat → exec (.noticeMask l p) s = .next (s.Answered l p.tag (some .badArgument) [])) ∧
      (p.s0.toNat < 8192 → ∃ t, exec (.noticeMask l p) s = .next t ∧
        (∀ y, (t.link y).mask = if y ∈ xs then p.s0.setWidth 13 else (s.link y).mask) ∧
        (∀ y, { t.link y with mask := (s.link y).mask } = (s.Answered l p.tag none (xs.map (fun _ => p.s0))).link y) ∧
        { t with links := s.links } = s))) ∧
  ∀ (l : Side) (p : Packet) (s : State), s.Admits l → (12 < p.s0.toNat ∨ (p.s0.toNat ≤ 10 ∧ 2 ≤ p.side.toNat)) →
    exec (.ackFault l p) s = .next (s.Answered l p.tag (some .badArgument) [])

/-- CLEAR_ERROR_LOG empties each log it names, 1 the frame store's, 2 the table store's, 3 both, and ends ERROR_CORRECTED exactly when both
are then empty and corr_cond is set; INJECT_ERROR arms the injection of its memory with read count 0 and reports it. A value, a memory, a
kind or a trigger out of its range is refused BAD_ARGUMENT with no effect (R124 to R126, R171, R172, R207, R211). Over all steps, an
UNCORRECTABLE record of either log stays until CLEAR_ERROR_LOG names its memory or power-on reset (R124, R171). The places of kind, trigger
and value in the reply of INJECT_ERROR are the model's reading (log entry 17). -/
def Obligations.ErrorLogsClearAndInjectionsArm : Prop :=
  (∀ (l : Side) (p : Packet) (s : State), s.Admits l →
     (p.Plain → (p.s0 = 0 ∨ 3 < p.s0.toNat) → exec (.clearErrorLog l p) s = .next (s.Answered l p.tag (some .badArgument) [])) ∧
     (p.Plain → 1 ≤ p.s0.toNat → p.s0.toNat ≤ 3 → ∃ t, exec (.clearErrorLog l p) s = .next t ∧
       t.frameStore = { s.frameStore with log := if p.s0 = 2 then s.frameStore.log else none } ∧
       t.tableStore = { s.tableStore with log := if p.s0 = 1 then s.tableStore.log else none } ∧
       (t.frameStore.log = none → t.tableStore.log = none → t.corrCond = false) ∧
       (t.frameStore.log = none → t.tableStore.log = none → s.corrCond = true →
         (t.faults.get (.part .errorCorrected)).state = .clear) ∧
       ((t.frameStore.log ≠ none ∨ t.tableStore.log ≠ none ∨ s.corrCond = false) →
         t.corrCond = s.corrCond ∧ t.faults = s.faults) ∧
       t.sides = s.sides ∧ (t.link l).replies = (s.link l).replies ++ [.ready { tag := p.tag, reason := none, data := [] }]) ∧
     (∀ (kind : InjKind) (trigger : InjTrigger) (lo hi : Word) (v : Nat), p.Sized → p.args = [lo, hi] →
       v = lo.toNat + 65536 * hi.toNat →
       (p.s0.extractLsb' 4 2 = 1 ∧ kind = .single) ∨ (p.s0.extractLsb' 4 2 = 2 ∧ kind = .double) →
       (p.s0.extractLsb' 8 2 = 1 ∧ trigger = .address v) ∨ (p.s0.extractLsb' 8 2 = 2 ∧ trigger = .count v) →
       (p.s0.extractLsb' 0 2 = 1 → (trigger = .address v → v < 2073600) → (trigger = .count v → 1 ≤ v ∧ v ≤ 65535) →
         exec (.injectErrorFrameStore l p) s =
           .next ({ s with frameStore := { s.frameStore with
             injection := some { kind := kind, trigger := trigger, reads := 0 } } }.Answered l p.tag none
             [if kind = InjKind.single then 1 else 2, if trigger = InjTrigger.address v then 1 else 2, lo, hi])) ∧
       (p.s0.extractLsb' 0 2 = 2 → (trigger = .address v → v < 10240) → (trigger = .count v → 1 ≤ v ∧ v ≤ 65535) →
         exec (.injectErrorTableStore l p) s =
           .next ({ s with tableStore := { s.tableStore with
             injection := some { kind := kind, trigger := trigger, reads := 0 } } }.Answered l p.tag none
             [if kind = InjKind.single then 1 else 2, if trigger = InjTrigger.address v then 1 else 2, lo, hi])) ∧
       (p.s0.extractLsb' 0 2 = 1 → (trigger = .address v ∧ 2073600 ≤ v ∨ trigger = .count v ∧ (v = 0 ∨ 65535 < v)) →
         exec (.injectErrorFrameStore l p) s = .next (s.Answered l p.tag (some .badArgument) [])) ∧
       (p.s0.extractLsb' 0 2 = 2 → (trigger = .address v ∧ 10240 ≤ v ∨ trigger = .count v ∧ (v = 0 ∨ 65535 < v)) →
         exec (.injectErrorTableStore l p) s = .next (s.Answered l p.tag (some .badArgument) [])))) ∧
  (∀ (l : Side) (p : Packet) (s : State), s.Admits l →
     (p.args.length ≠ 2 ∨ (p.s0.extractLsb' 4 2 ≠ 1 ∧ p.s0.extractLsb' 4 2 ≠ 2) ∨
       (p.s0.extractLsb' 8 2 ≠ 1 ∧ p.s0.extractLsb' 8 2 ≠ 2) ∨ (p.s0.extractLsb' 0 2 ≠ 1 ∧ p.s0.extractLsb' 0 2 ≠ 2)) →
     exec (.injectErrorFrameStore l p) s = .next (s.Answered l p.tag (some .badArgument) []) ∧
     exec (.injectErrorTableStore l p) s = .next (s.Answered l p.tag (some .badArgument) [])) ∧
  -- an UNCORRECTABLE log record over all steps (R124, R171)
  ∀ (s t : State) (e : LogRecord), step s = .next t → e.kind = .uncorrectable → s.pending.head? ≠ some .powerOnReset →
    (s.frameStore.log = some e → (∀ l p, s.pending.head? = some (.clearErrorLog l p) → p.s0 ≠ 1 ∧ p.s0 ≠ 3) →
      t.frameStore.log = some e) ∧
    (s.tableStore.log = some e → (∀ l p, s.pending.head? = some (.clearErrorLog l p) → p.s0 ≠ 2 ∧ p.s0 ≠ 3) →
      t.tableStore.log = some e)

/-- The table store's code corrects every single-bit error and detects every double-bit error: for every data word, the stored word reads
clean and gives the data back; with any one bit flipped it is corrected to the stored word, with syndrome 32 + the position; with any two
bits flipped it is uncorrectable (R155, R156). -/
def Obligations.TableStoreCodeCorrectsOneAndDetectsTwo : Prop :=
  ∀ d : Word,
    checkWord 5 (encodeWord 22 d) = .clean ∧ dataOf 16 (encodeWord 22 d) = d ∧
    (∀ p, p < 22 → checkWord 5 (encodeWord 22 d ^^^ (1#22 <<< p)) = .corrected (32 + p) (encodeWord 22 d)) ∧
    (∀ p q, p < q → q < 22 →
      ∃ y, checkWord 5 (encodeWord 22 d ^^^ (1#22 <<< p) ^^^ (1#22 <<< q)) = .uncorrectable y)

/-- The frame store's code corrects every single-bit error and detects every double-bit error, as the table store's does, over 72 bits,
with syndrome 128 + the position (R119, R120). -/
def Obligations.FrameStoreCodeCorrectsOneAndDetectsTwo : Prop :=
  ∀ d : BitVec 64,
    checkWord 7 (encodeWord 72 d) = .clean ∧ dataOf 64 (encodeWord 72 d) = d ∧
    (∀ p, p < 72 → checkWord 7 (encodeWord 72 d ^^^ (1#72 <<< p)) = .corrected (128 + p) (encodeWord 72 d)) ∧
    (∀ p q, p < q → q < 72 →
      ∃ y, checkWord 7 (encodeWord 72 d ^^^ (1#72 <<< p) ^^^ (1#72 <<< q)) = .uncorrectable y)
end

