-- ==== Sys2Proof/Laws/Memory.lean ====
section
/-! SUPPORT. Laws of an addressed memory: what a read gives after a write, inside and outside the words written, and that a write keeps
the canonical form. -/

namespace Sys2Proof.Machine

variable {w : Nat} {dflt : Nat → BitVec w}

/-! ## Lookup in the pieces of a written memory -/

theorem Mem.lookup_filter (P : Nat → Bool) (m : Mem w) (a : Nat) :
    (m.filter (fun c => P c.1)).lookup a = if P a then m.lookup a else none := by
  induction m with
  | nil => simp
  | cons c m ih =>
    obtain ⟨b, v⟩ := c
    by_cases hb : P b
    · by_cases hab : a = b
      · subst hab; simp [hb]
      · have : (a == b) = false := by simpa using hab
        simp [hb, List.lookup_cons, this, ih]
    · by_cases hab : a = b
      · subst hab; simp [hb, ih]
      · have : (a == b) = false := by simpa using hab
        simp [hb, List.lookup_cons, this, ih]

theorem Mem.newCells_key {base : Nat} {vs : List (BitVec w)} {c : Nat × BitVec w} (h : c ∈ Mem.newCells dflt base vs) :
    base ≤ c.1 ∧ c.1 < base + vs.length ∧ c.2 ≠ dflt c.1 := by
  induction vs generalizing base with
  | nil => simp [Mem.newCells] at h
  | cons v vs ih =>
    unfold Mem.newCells at h
    split at h
    · have := ih h; simp only [List.length_cons]; refine ⟨by omega, by omega, this.2.2⟩
    · rcases List.mem_cons.mp h with rfl | h
      · exact ⟨Nat.le_refl _, by simp, by assumption⟩
      · have := ih h; simp only [List.length_cons]; refine ⟨by omega, by omega, this.2.2⟩

theorem Mem.lookup_none {m : Mem w} {a : Nat} (h : ∀ c ∈ m, c.1 ≠ a) : m.lookup a = none := by
  induction m with
  | nil => rfl
  | cons c m ih =>
    have h1 := h c (List.mem_cons_self ..)
    have : (a == c.1) = false := by simpa using fun e => h1 e.symm
    rw [List.lookup_cons, this]
    exact ih (fun d hd => h d (List.mem_cons_of_mem _ hd))

theorem Mem.lookup_newCells (base : Nat) (vs : List (BitVec w)) (j : Nat) :
    ((Mem.newCells dflt base vs).lookup (base + j)).getD (dflt (base + j)) = vs.getD j (dflt (base + j)) := by
  induction vs generalizing base j with
  | nil => simp [Mem.newCells]
  | cons v vs ih =>
    unfold Mem.newCells
    cases j with
    | zero =>
      split
      · rename_i h
        rw [Mem.lookup_none (fun c hc e => by have := (Mem.newCells_key hc).1; omega)]
        simp [h]
      · simp
    | succ j =>
      have hne : (base + (j + 1) == base) = false := by simp
      have e : base + (j + 1) = base + 1 + j := by omega
      split
      · rw [e, ih]; simp
      · rw [List.lookup_cons, hne, e, ih]; simp

theorem Mem.lookup_append (m n : Mem w) (a : Nat) : (m ++ n).lookup a = (m.lookup a).or (n.lookup a) := by
  induction m with
  | nil => simp
  | cons c m ih =>
    obtain ⟨b, v⟩ := c
    by_cases h : a = b
    · subst h; simp
    · have : (a == b) = false := by simpa using h
      simp [List.lookup_cons, this, ih]

/-! ## Read after write -/

/-- A word of a block reads as the word written to it. -/
theorem Mem.read_writeBlock_in (m : Mem w) (base : Nat) (vs : List (BitVec w)) (j : Nat) (h : j < vs.length) :
    Mem.read dflt (Mem.writeBlock dflt m base vs) (base + j) = vs[j] := by
  have h1 : (m.filter (fun c => decide (c.1 < base))).lookup (base + j) = none := by
    rw [Mem.lookup_filter (fun a => decide (a < base))]; simp
  have h2 : (m.filter (fun c => decide (base + vs.length ≤ c.1))).lookup (base + j) = none := by
    rw [Mem.lookup_filter (fun a => decide (base + vs.length ≤ a))]
    exact if_neg (by simpa using h)
  unfold Mem.read Mem.writeBlock
  rw [Mem.lookup_append, Mem.lookup_append, h1, h2, Option.none_or, Option.or_none, Mem.lookup_newCells]
  simp [List.getD, h]

/-- A word outside a block reads as before it was written. -/
theorem Mem.read_writeBlock_out (m : Mem w) (base : Nat) (vs : List (BitVec w)) (a : Nat)
    (h : a < base ∨ base + vs.length ≤ a) :
    Mem.read dflt (Mem.writeBlock dflt m base vs) a = Mem.read dflt m a := by
  have h1 := Mem.lookup_filter (fun a => decide (a < base)) m a
  have h2 := Mem.lookup_filter (fun a => decide (base + vs.length ≤ a)) m a
  have h3 : (Mem.newCells dflt base vs).lookup a = none :=
    Mem.lookup_none (fun c hc e => by have := Mem.newCells_key hc; omega)
  unfold Mem.read Mem.writeBlock
  rw [Mem.lookup_append, Mem.lookup_append, h1, h2, h3]
  rcases h with h | h
  · have : ¬ base + vs.length ≤ a := by omega
    simp [h, this]
  · have : ¬ a < base := by omega
    simp [h, this]

/-- A read after a write of one word. -/
theorem Mem.read_write (m : Mem w) (a b : Nat) (v : BitVec w) :
    Mem.read dflt (Mem.write dflt m a v) b = if b = a then v else Mem.read dflt m b := by
  unfold Mem.write
  split
  · rename_i h
    subst h
    exact Mem.read_writeBlock_in m b [v] 0 (by simp)
  · exact Mem.read_writeBlock_out m a [v] b (by simp; omega)

/-! ## The canonical form -/

theorem Mem.sorted_iff (m : Mem w) : Mem.sorted m = true ↔ m.Pairwise (fun a b => a.1 < b.1) := by
  induction m with
  | nil => simp [Mem.sorted]
  | cons c m ih =>
    cases m with
    | nil => simp [Mem.sorted]
    | cons d m =>
      rw [Mem.sorted, Bool.and_eq_true, ih, List.pairwise_cons (a := c)]
      constructor
      · rintro ⟨h1, h2⟩
        refine ⟨fun e he => ?_, h2⟩
        have h1 : c.1 < d.1 := by simpa using h1
        rcases List.mem_cons.mp he with rfl | he
        · exact h1
        · exact Nat.lt_trans h1 ((List.pairwise_cons.mp h2).1 e he)
      · rintro ⟨h1, h2⟩
        exact ⟨by simpa using h1 d (List.mem_cons_self ..), h2⟩

theorem Mem.wf_iff (m : Mem w) :
    Mem.wf dflt m = true ↔ m.Pairwise (fun a b => a.1 < b.1) ∧ ∀ c ∈ m, c.2 ≠ dflt c.1 := by
  simp [Mem.wf, Mem.sorted_iff]

theorem Mem.newCells_sorted (base : Nat) (vs : List (BitVec w)) :
    (Mem.newCells dflt base vs).Pairwise (fun a b => a.1 < b.1) := by
  induction vs generalizing base with
  | nil => simp [Mem.newCells]
  | cons v vs ih =>
    unfold Mem.newCells
    split
    · exact ih _
    · exact List.pairwise_cons.mpr ⟨fun c hc => (Mem.newCells_key hc).1, ih _⟩

/-- A write keeps the canonical form. -/
theorem Mem.wf_writeBlock {m : Mem w} (h : Mem.wf dflt m = true) (base : Nat) (vs : List (BitVec w)) :
    Mem.wf dflt (Mem.writeBlock dflt m base vs) = true := by
  rw [Mem.wf_iff] at h ⊢
  unfold Mem.writeBlock
  refine ⟨List.pairwise_append.mpr ⟨List.pairwise_append.mpr ⟨h.1.filter _, Mem.newCells_sorted _ _, ?_⟩, h.1.filter _, ?_⟩, ?_⟩
  · intro a ha b hb
    have ha := (List.mem_filter.mp ha).2
    have hb := (Mem.newCells_key hb).1
    exact Nat.lt_of_lt_of_le (by simpa using ha) hb
  · intro a ha b hb
    have hb : base + vs.length ≤ b.1 := by simpa using (List.mem_filter.mp hb).2
    rcases List.mem_append.mp ha with ha | ha
    · have ha : a.1 < base := by simpa using (List.mem_filter.mp ha).2
      omega
    · have := Mem.newCells_key ha
      omega
  · intro c hc
    rcases List.mem_append.mp hc with hc | hc
    · rcases List.mem_append.mp hc with hc | hc
      · exact h.2 c (List.mem_filter.mp hc).1
      · exact (Mem.newCells_key hc).2.2
    · exact h.2 c (List.mem_filter.mp hc).1

/-- A write of one word keeps the canonical form. -/
theorem Mem.wf_write {m : Mem w} (h : Mem.wf dflt m = true) (a : Nat) (v : BitVec w) :
    Mem.wf dflt (Mem.write dflt m a v) = true := Mem.wf_writeBlock h a [v]

/-- A write inside a memory of `size` words leaves its cells inside. -/
theorem Mem.within_writeBlock {m : Mem w} {size : Nat} (h : Mem.within size m = true) (base : Nat) (vs : List (BitVec w))
    (hb : base + vs.length ≤ size) : Mem.within size (Mem.writeBlock dflt m base vs) = true := by
  simp only [Mem.within, List.all_eq_true, decide_eq_true_eq] at h ⊢
  intro c hc
  unfold Mem.writeBlock at hc
  rcases List.mem_append.mp hc with hc | hc
  · rcases List.mem_append.mp hc with hc | hc
    · exact h c (List.mem_filter.mp hc).1
    · have := Mem.newCells_key hc; omega
  · exact h c (List.mem_filter.mp hc).1

/-- Two memories of canonical form that read alike are equal. -/
theorem Mem.eq_of_read {m n : Mem w} (hm : Mem.wf dflt m = true) (hn : Mem.wf dflt n = true)
    (h : ∀ a, Mem.read dflt m a = Mem.read dflt n a) : m = n := by
  rw [Mem.wf_iff] at hm hn
  have mem_iff : ∀ {p : Mem w}, p.Pairwise (fun a b => a.1 < b.1) → (∀ c ∈ p, c.2 ≠ dflt c.1) → ∀ a v,
      (a, v) ∈ p ↔ v ≠ dflt a ∧ Mem.read dflt p a = v := by
    intro p hs hd a v
    induction p with
    | nil => simp [Mem.read]; exact fun h e => h e.symm
    | cons c p ih =>
      obtain ⟨b, u⟩ := c
      obtain ⟨h1, h2⟩ := List.pairwise_cons.mp hs
      by_cases hab : a = b
      · subst hab
        have hu := hd (a, u) (List.mem_cons_self ..)
        have hnot : (a, v) ∉ p := fun hc => by have := h1 _ hc; simp at this
        simp only [List.mem_cons, Prod.mk.injEq, true_and, hnot, or_false, Mem.read, List.lookup_cons, BEq.rfl, Option.getD_some]
        exact ⟨fun e => ⟨e ▸ hu, e.symm⟩, fun e => e.2.symm⟩
      · have e1 : (a == b) = false := by simpa using hab
        have e2 : ((a, v) = (b, u)) = False := by simp [hab]
        rw [List.mem_cons, e2, false_or, ih h2 (fun c hc => hd c (List.mem_cons_of_mem _ hc))]
        simp [Mem.read, List.lookup_cons, e1]
  have hmem : ∀ c, c ∈ m ↔ c ∈ n := by
    rintro ⟨a, v⟩
    rw [mem_iff hm.1 hm.2, mem_iff hn.1 hn.2, h a]
  exact List.Perm.eq_of_pairwise (le := fun a b : Nat × BitVec w => a.1 < b.1)
    (fun a b _ _ h1 h2 => absurd h1 (by omega)) hm.1 hn.1
    ((List.perm_ext_iff_of_nodup (hm.1.imp (fun h e => by rw [e] at h; exact absurd h (Nat.lt_irrefl _)))
      (hn.1.imp (fun h e => by rw [e] at h; exact absurd h (Nat.lt_irrefl _)))).mpr hmem)

end Sys2Proof.Machine
end

