-- ==== Sys2Proof/Laws/State.lean ====
section
/-! SUPPORT. Small laws of the state: what each update of a record reads back as, field by field. -/

namespace Sys2Proof

theorem Side.eq_or_eq_other (x y : Side) : y = x ∨ y = x.other := by cases x <;> cases y <;> simp [Side.other]

@[simp] theorem Side.other_ne (x : Side) : x.other ≠ x := by cases x <;> simp [Side.other]

@[simp] theorem Side.other_other (x : Side) : x.other.other = x := by cases x <;> rfl

theorem Side.forall_iff (P : Side → Prop) : (∀ x, P x) ↔ P .left ∧ P .right :=
  ⟨fun h => ⟨h _, h _⟩, fun h x => by cases x; exacts [h.1, h.2]⟩

namespace Sided

variable {α : Type}

theorem get_set (p : Sided α) (x y : Side) (a : α) : (p.set x a).get y = if y = x then a else p.get y := by
  cases x <;> cases y <;> rfl

@[simp] theorem get_set_self (p : Sided α) (x : Side) (a : α) : (p.set x a).get x = a := by cases x <;> rfl

@[simp] theorem get_set_other (p : Sided α) (x : Side) (a : α) : (p.set x a).get x.other = p.get x.other := by
  cases x <;> rfl

@[simp] theorem set_get (p : Sided α) (x : Side) : p.set x (p.get x) = p := by cases x <;> rfl

@[simp] theorem set_set (p : Sided α) (x : Side) (a b : α) : (p.set x a).set x b = p.set x b := by cases x <;> rfl

theorem ext_get {p q : Sided α} (h : ∀ x, p.get x = q.get x) : p = q := by
  cases p; cases q
  have hl := h .left
  have hr := h .right
  simp only [get] at hl hr
  simp [hl, hr]

end Sided

namespace Machine

/-! ## Records by name -/

theorem PerTable.get_set {α : Type} (p : PerTable α) (t u : TableId) (a : α) :
    (p.set t a).get u = if u = t then a else p.get u := by
  cases t <;> cases u <;> rfl

@[simp] theorem PerTable.get_set_self {α : Type} (p : PerTable α) (t : TableId) (a : α) : (p.set t a).get t = a := by
  cases t <;> rfl

@[simp] theorem PerTable.get_ofFn {α : Type} (f : TableId → α) (t : TableId) : (PerTable.ofFn f).get t = f t := by
  cases t <;> rfl

theorem Slots.get_set (p : Slots) (n m : SlotNo) (a : Slot) : (p.set n a).get m = if m = n then a else p.get m := by
  cases n <;> cases m <;> rfl

@[simp] theorem Slots.get_set_self (p : Slots) (n : SlotNo) (a : Slot) : (p.set n a).get n = a := by cases n <;> rfl

theorem SideRecords.get_set (r : SideRecords) (c e : SideClass) (a : FaultRecord) :
    (r.set c a).get e = if e = c then a else r.get e := by
  cases c <;> cases e <;> rfl

theorem FaultTable.get_set (f : FaultTable) (i j : RecordId) (a : FaultRecord) :
    (f.set i a).get j = if j = i then a else f.get j := by
  cases i with
  | side c x =>
    cases j with
    | side e y =>
      simp only [FaultTable.set, FaultTable.get, RecordId.side.injEq]
      cases x <;> cases y <;> simp [Sided.get, Sided.set, SideRecords.get_set]
    | part q => cases q <;> simp [FaultTable.set, FaultTable.get]
  | part p =>
    cases j with
    | side e y => cases p <;> simp [FaultTable.set, FaultTable.get]
    | part q => cases p <;> cases q <;> simp [FaultTable.set, FaultTable.get]

@[simp] theorem FaultTable.get_set_self (f : FaultTable) (i : RecordId) (a : FaultRecord) : (f.set i a).get i = a := by
  simp [FaultTable.get_set]

/-! ## One side changed -/

@[simp] theorem State.onSide_pending (s : State) (x : Side) (f : SideState → SideState) : (s.onSide x f).pending = s.pending := rfl

@[simp] theorem State.onSide_inReset (s : State) (x : Side) (f : SideState → SideState) : (s.onSide x f).inReset = s.inReset := rfl

@[simp] theorem State.onSide_tick (s : State) (x : Side) (f : SideState → SideState) : (s.onSide x f).tick = s.tick := rfl

@[simp] theorem State.onSide_timing (s : State) (x : Side) (f : SideState → SideState) : (s.onSide x f).timing = s.timing := rfl

@[simp] theorem State.onSide_ties (s : State) (x : Side) (f : SideState → SideState) : (s.onSide x f).ties = s.ties := rfl

@[simp] theorem State.onSide_opened (s : State) (x : Side) (f : SideState → SideState) : (s.onSide x f).opened = s.opened := rfl

@[simp] theorem State.onSide_links (s : State) (x : Side) (f : SideState → SideState) : (s.onSide x f).links = s.links := rfl

@[simp] theorem State.onSide_artic (s : State) (x : Side) (f : SideState → SideState) : (s.onSide x f).artic = s.artic := rfl

@[simp] theorem State.onSide_frameStore (s : State) (x : Side) (f : SideState → SideState) : (s.onSide x f).frameStore = s.frameStore := rfl

@[simp] theorem State.onSide_tableStore (s : State) (x : Side) (f : SideState → SideState) : (s.onSide x f).tableStore = s.tableStore := rfl

@[simp] theorem State.onSide_corrCond (s : State) (x : Side) (f : SideState → SideState) : (s.onSide x f).corrCond = s.corrCond := rfl

@[simp] theorem State.onSide_locks (s : State) (x : Side) (f : SideState → SideState) : (s.onSide x f).locks = s.locks := rfl

@[simp] theorem State.onSide_faults (s : State) (x : Side) (f : SideState → SideState) : (s.onSide x f).faults = s.faults := rfl

@[simp] theorem State.onSide_sides (s : State) (x : Side) (f : SideState → SideState) :
    (s.onSide x f).sides = s.sides.set x (f (s.side x)) := rfl

@[simp] theorem State.onSide_side (s : State) (x : Side) (f : SideState → SideState) : (s.onSide x f).side x = f (s.side x) := by
  simp [State.side]

@[simp] theorem State.onSide_side_other (s : State) (x : Side) (f : SideState → SideState) :
    (s.onSide x f).side x.other = s.side x.other := by
  simp [State.side]

theorem State.side_onSide (s : State) (x y : Side) (f : SideState → SideState) :
    (s.onSide x f).side y = if y = x then f (s.side x) else s.side y := by
  simp [State.side, Sided.get_set]

@[simp] theorem State.onSide_link (s : State) (x y : Side) (f : SideState → SideState) : (s.onSide x f).link y = s.link y := rfl

@[simp] theorem State.onSide_isUp (s : State) (x y : Side) (f : SideState → SideState) : (s.onSide x f).isUp y = s.isUp y := rfl

/-! ## One link changed -/

@[simp] theorem State.onLink_pending (s : State) (l : Side) (f : Link → Link) : (s.onLink l f).pending = s.pending := rfl

@[simp] theorem State.onLink_inReset (s : State) (l : Side) (f : Link → Link) : (s.onLink l f).inReset = s.inReset := rfl

@[simp] theorem State.onLink_tick (s : State) (l : Side) (f : Link → Link) : (s.onLink l f).tick = s.tick := rfl

@[simp] theorem State.onLink_timing (s : State) (l : Side) (f : Link → Link) : (s.onLink l f).timing = s.timing := rfl

@[simp] theorem State.onLink_ties (s : State) (l : Side) (f : Link → Link) : (s.onLink l f).ties = s.ties := rfl

@[simp] theorem State.onLink_opened (s : State) (l : Side) (f : Link → Link) : (s.onLink l f).opened = s.opened := rfl

@[simp] theorem State.onLink_sides (s : State) (l : Side) (f : Link → Link) : (s.onLink l f).sides = s.sides := rfl

@[simp] theorem State.onLink_artic (s : State) (l : Side) (f : Link → Link) : (s.onLink l f).artic = s.artic := rfl

@[simp] theorem State.onLink_frameStore (s : State) (l : Side) (f : Link → Link) : (s.onLink l f).frameStore = s.frameStore := rfl

@[simp] theorem State.onLink_tableStore (s : State) (l : Side) (f : Link → Link) : (s.onLink l f).tableStore = s.tableStore := rfl

@[simp] theorem State.onLink_corrCond (s : State) (l : Side) (f : Link → Link) : (s.onLink l f).corrCond = s.corrCond := rfl

@[simp] theorem State.onLink_locks (s : State) (l : Side) (f : Link → Link) : (s.onLink l f).locks = s.locks := rfl

@[simp] theorem State.onLink_faults (s : State) (l : Side) (f : Link → Link) : (s.onLink l f).faults = s.faults := rfl

@[simp] theorem State.onLink_links (s : State) (l : Side) (f : Link → Link) :
    (s.onLink l f).links = s.links.set l (f (s.link l)) := rfl

@[simp] theorem State.onLink_link (s : State) (l : Side) (f : Link → Link) : (s.onLink l f).link l = f (s.link l) := by
  simp [State.link]

@[simp] theorem State.onLink_link_other (s : State) (l : Side) (f : Link → Link) :
    (s.onLink l f).link l.other = s.link l.other := by
  simp [State.link]

theorem State.link_onLink (s : State) (l y : Side) (f : Link → Link) :
    (s.onLink l f).link y = if y = l then f (s.link l) else s.link y := by
  simp [State.link, Sided.get_set]

@[simp] theorem State.onLink_side (s : State) (l x : Side) (f : Link → Link) : (s.onLink l f).side x = s.side x := rfl

/-! ## One composer changed -/

@[simp] theorem State.onComp_pending (s : State) (x : Side) (f : Composer → Composer) : (s.onComp x f).pending = s.pending := rfl

@[simp] theorem State.onComp_inReset (s : State) (x : Side) (f : Composer → Composer) : (s.onComp x f).inReset = s.inReset := rfl

@[simp] theorem State.onComp_tick (s : State) (x : Side) (f : Composer → Composer) : (s.onComp x f).tick = s.tick := rfl

@[simp] theorem State.onComp_timing (s : State) (x : Side) (f : Composer → Composer) : (s.onComp x f).timing = s.timing := rfl

@[simp] theorem State.onComp_ties (s : State) (x : Side) (f : Composer → Composer) : (s.onComp x f).ties = s.ties := rfl

@[simp] theorem State.onComp_opened (s : State) (x : Side) (f : Composer → Composer) : (s.onComp x f).opened = s.opened := rfl

@[simp] theorem State.onComp_links (s : State) (x : Side) (f : Composer → Composer) : (s.onComp x f).links = s.links := rfl

@[simp] theorem State.onComp_artic (s : State) (x : Side) (f : Composer → Composer) : (s.onComp x f).artic = s.artic := rfl

@[simp] theorem State.onComp_frameStore (s : State) (x : Side) (f : Composer → Composer) : (s.onComp x f).frameStore = s.frameStore := rfl

@[simp] theorem State.onComp_tableStore (s : State) (x : Side) (f : Composer → Composer) : (s.onComp x f).tableStore = s.tableStore := rfl

@[simp] theorem State.onComp_corrCond (s : State) (x : Side) (f : Composer → Composer) : (s.onComp x f).corrCond = s.corrCond := rfl

@[simp] theorem State.onComp_locks (s : State) (x : Side) (f : Composer → Composer) : (s.onComp x f).locks = s.locks := rfl

@[simp] theorem State.onComp_faults (s : State) (x : Side) (f : Composer → Composer) : (s.onComp x f).faults = s.faults := rfl

@[simp] theorem State.onComp_side (s : State) (x : Side) (f : Composer → Composer) :
    (s.onComp x f).side x = { s.side x with comp := f (s.side x).comp } := by
  simp [State.onComp]

theorem State.side_onComp (s : State) (x y : Side) (f : Composer → Composer) :
    (s.onComp x f).side y = if y = x then { s.side x with comp := f (s.side x).comp } else s.side y := by
  simp [State.onComp, State.side_onSide]

@[simp] theorem State.onComp_link (s : State) (x l : Side) (f : Composer → Composer) : (s.onComp x f).link l = s.link l := rfl

/-! ## One fault record replaced -/

@[simp] theorem State.setRecord_pending (s : State) (i : RecordId) (r : FaultRecord) : (s.setRecord i r).pending = s.pending := rfl

@[simp] theorem State.setRecord_inReset (s : State) (i : RecordId) (r : FaultRecord) : (s.setRecord i r).inReset = s.inReset := rfl

@[simp] theorem State.setRecord_tick (s : State) (i : RecordId) (r : FaultRecord) : (s.setRecord i r).tick = s.tick := rfl

@[simp] theorem State.setRecord_timing (s : State) (i : RecordId) (r : FaultRecord) : (s.setRecord i r).timing = s.timing := rfl

@[simp] theorem State.setRecord_ties (s : State) (i : RecordId) (r : FaultRecord) : (s.setRecord i r).ties = s.ties := rfl

@[simp] theorem State.setRecord_opened (s : State) (i : RecordId) (r : FaultRecord) : (s.setRecord i r).opened = s.opened := rfl

@[simp] theorem State.setRecord_sides (s : State) (i : RecordId) (r : FaultRecord) : (s.setRecord i r).sides = s.sides := rfl

@[simp] theorem State.setRecord_links (s : State) (i : RecordId) (r : FaultRecord) : (s.setRecord i r).links = s.links := rfl

@[simp] theorem State.setRecord_artic (s : State) (i : RecordId) (r : FaultRecord) : (s.setRecord i r).artic = s.artic := rfl

@[simp] theorem State.setRecord_frameStore (s : State) (i : RecordId) (r : FaultRecord) : (s.setRecord i r).frameStore = s.frameStore := rfl

@[simp] theorem State.setRecord_tableStore (s : State) (i : RecordId) (r : FaultRecord) : (s.setRecord i r).tableStore = s.tableStore := rfl

@[simp] theorem State.setRecord_corrCond (s : State) (i : RecordId) (r : FaultRecord) : (s.setRecord i r).corrCond = s.corrCond := rfl

@[simp] theorem State.setRecord_locks (s : State) (i : RecordId) (r : FaultRecord) : (s.setRecord i r).locks = s.locks := rfl

@[simp] theorem State.setRecord_faults (s : State) (i : RecordId) (r : FaultRecord) :
    (s.setRecord i r).faults = s.faults.set i r := rfl

@[simp] theorem State.setRecord_side (s : State) (i : RecordId) (r : FaultRecord) (x : Side) : (s.setRecord i r).side x = s.side x := rfl

@[simp] theorem State.setRecord_link (s : State) (i : RecordId) (r : FaultRecord) (l : Side) : (s.setRecord i r).link l = s.link l := rfl

/-! ## A reply queued -/

@[simp] theorem State.Answered_pending (s : State) (l : Side) (tag : BitVec 8) (q : Option Reason) (d : List Word) : (s.Answered l tag q d).pending = s.pending := rfl

@[simp] theorem State.Answered_inReset (s : State) (l : Side) (tag : BitVec 8) (q : Option Reason) (d : List Word) : (s.Answered l tag q d).inReset = s.inReset := rfl

@[simp] theorem State.Answered_tick (s : State) (l : Side) (tag : BitVec 8) (q : Option Reason) (d : List Word) : (s.Answered l tag q d).tick = s.tick := rfl

@[simp] theorem State.Answered_timing (s : State) (l : Side) (tag : BitVec 8) (q : Option Reason) (d : List Word) : (s.Answered l tag q d).timing = s.timing := rfl

@[simp] theorem State.Answered_ties (s : State) (l : Side) (tag : BitVec 8) (q : Option Reason) (d : List Word) : (s.Answered l tag q d).ties = s.ties := rfl

@[simp] theorem State.Answered_opened (s : State) (l : Side) (tag : BitVec 8) (q : Option Reason) (d : List Word) : (s.Answered l tag q d).opened = s.opened := rfl

@[simp] theorem State.Answered_sides (s : State) (l : Side) (tag : BitVec 8) (q : Option Reason) (d : List Word) : (s.Answered l tag q d).sides = s.sides := rfl

@[simp] theorem State.Answered_artic (s : State) (l : Side) (tag : BitVec 8) (q : Option Reason) (d : List Word) : (s.Answered l tag q d).artic = s.artic := rfl

@[simp] theorem State.Answered_frameStore (s : State) (l : Side) (tag : BitVec 8) (q : Option Reason) (d : List Word) : (s.Answered l tag q d).frameStore = s.frameStore := rfl

@[simp] theorem State.Answered_tableStore (s : State) (l : Side) (tag : BitVec 8) (q : Option Reason) (d : List Word) : (s.Answered l tag q d).tableStore = s.tableStore := rfl

@[simp] theorem State.Answered_corrCond (s : State) (l : Side) (tag : BitVec 8) (q : Option Reason) (d : List Word) : (s.Answered l tag q d).corrCond = s.corrCond := rfl

@[simp] theorem State.Answered_locks (s : State) (l : Side) (tag : BitVec 8) (q : Option Reason) (d : List Word) : (s.Answered l tag q d).locks = s.locks := rfl

@[simp] theorem State.Answered_faults (s : State) (l : Side) (tag : BitVec 8) (q : Option Reason) (d : List Word) : (s.Answered l tag q d).faults = s.faults := rfl

@[simp] theorem State.Answered_side (s : State) (l x : Side) (tag : BitVec 8) (q : Option Reason) (d : List Word) :
    (s.Answered l tag q d).side x = s.side x := rfl

@[simp] theorem State.Answered_link (s : State) (l : Side) (tag : BitVec 8) (q : Option Reason) (d : List Word) :
    (s.Answered l tag q d).link l = (s.link l).Queued tag q d := by
  simp [State.Answered, State.link]

theorem State.link_Answered (s : State) (l y : Side) (tag : BitVec 8) (q : Option Reason) (d : List Word) :
    (s.Answered l tag q d).link y = if y = l then (s.link l).Queued tag q d else s.link y := by
  simp [State.Answered, State.link, Sided.get_set]

/-! ## Admission (R195 to R199, R209) -/

theorem State.respond_done (s : State) (l : Side) (tag : BitVec 8) (d : List Word) :
    s.respond l tag (.done d) = s.Answered l tag none d := rfl

theorem State.respond_refused (s : State) (l : Side) (tag : BitVec 8) (q : Reason) (d : List Word) :
    s.respond l tag (.refused q d) = s.Answered l tag (some q) d := rfl

/-- An event is taken whole while the reset input is not asserted. -/
theorem State.take_eq (s : State) (f : State → State) (h : s.inReset = false) : s.take f = .next (f s) := by
  simp [State.take, h]

/-- While the reset input is asserted an event changes nothing. -/
theorem State.take_inReset (s : State) (f : State → State) (h : s.inReset = true) : s.take f = .next s := by
  simp [State.take, h]

/-- An admitted directive takes its effect and puts its response in the queue. -/
theorem State.admit_eq (s : State) (l : Side) (tag : BitVec 8) (body : State → Response × State) (h : s.Admits l) :
    s.admission l tag body = (body s).2.respond l tag (body s).1 := by
  simp [State.admission, State.isUp, h.2.1, h.2.2]

/-- A directive with a fitting length field takes its own rule. -/
theorem State.directive_eq (s : State) (l : Side) (p : Packet) (body : State → Response × State) (h : s.Admits l) (hp : p.Sized) :
    s.directive l p body = (body s).2.respond l p.tag (body s).1 := by
  have h1 : ¬ (32 < p.length.toNat ∨ p.length.toNat ≠ p.args.length) := by
    have := hp.1
    have := hp.2
    omega
  simp only [State.directive, State.admit_eq s l p.tag _ h, if_neg h1]

theorem sized_of_plain {p : Packet} (h : p.Plain) : p.Sized := by
  simp [Packet.Sized, h.1, h.2]

/-- A directive without argument words takes its own rule. -/
theorem State.plainDirective_eq (s : State) (l : Side) (p : Packet) (body : State → Response × State) (h : s.Admits l)
    (hp : p.Plain) : s.plainDirective l p body = (body s).2.respond l p.tag (body s).1 := by
  simp only [State.plainDirective, State.directive_eq s l p _ h (sized_of_plain hp), if_pos hp.2]

/-- A READ_ITEM with its own item code takes its own rule. -/
theorem State.readItem_eq (s : State) (l : Side) (p : Packet) (item : Word) (body : State → Response × State) (h : s.Admits l)
    (hp : p.Plain) (hi : p.s0 = item) : s.readItem l p item body = (body s).2.respond l p.tag (body s).1 := by
  simp only [State.readItem, State.plainDirective_eq s l p _ h hp, if_pos hi]

/-- A directive for LEFT, RIGHT or BOTH takes its own rule for the sides named. -/
theorem State.sidesDirective_eq (s : State) (l : Side) (p : Packet) (body : List Side → State → Response × State) (xs : List Side)
    (h : s.Admits l) (hp : p.Plain) (hx : sidesField p.side = some xs) :
    s.sidesDirective l p body = (body xs s).2.respond l p.tag (body xs s).1 := by
  simp only [State.sidesDirective, State.plainDirective_eq s l p _ h hp, hx]

/-- The sides that a side field may name. -/
theorem sidesField_cases {f : BitVec 2} {xs : List Side} (h : sidesField f = some xs) :
    xs = [.left] ∨ xs = [.right] ∨ xs = [.left, .right] := by
  unfold sidesField at h
  split_ifs at h <;> simp_all

end Machine

end Sys2Proof
end

