-- ==== Sys2Proof/Laws/Reports.lean ====
section
/-! SUPPORT. Laws of reports and notices: what a notice, a setting and an end change, and that they change nothing else (R177, R178,
R183, R184). -/

namespace Sys2Proof.Machine

/-! ## Notices -/

/-- Everything a notice for a record can do to a link (R183, R184). -/
theorem State.notify_link (s : State) (i : RecordId) (l : Side) :
    (s.notify i).link l =
      if s.routesTo i l = true ∧ admits (s.link l).mask i = true then (s.link l).enqueue i else s.link l := by
  cases l <;> cases hL : s.routesTo i .left <;> cases hR : s.routesTo i .right <;>
    simp only [State.notify, State.queueOn, hL, hR] <;>
    (repeat' split) <;> simp_all [State.link, State.onLink, Sided.get, Sided.set]

@[simp] theorem Link.enqueue_state (k : Link) (i : RecordId) : (k.enqueue i).state = k.state := by
  unfold Link.enqueue; split <;> rfl

@[simp] theorem Link.enqueue_beenUp (k : Link) (i : RecordId) : (k.enqueue i).beenUp = k.beenUp := by
  unfold Link.enqueue; split <;> rfl

@[simp] theorem Link.enqueue_linkCond (k : Link) (i : RecordId) : (k.enqueue i).linkCond = k.linkCond := by
  unfold Link.enqueue; split <;> rfl

@[simp] theorem Link.enqueue_replies (k : Link) (i : RecordId) : (k.enqueue i).replies = k.replies := by
  unfold Link.enqueue; split <;> rfl

@[simp] theorem Link.enqueue_overrun (k : Link) (i : RecordId) : (k.enqueue i).overrun = k.overrun := by
  unfold Link.enqueue; split <;> rfl

@[simp] theorem Link.enqueue_mask (k : Link) (i : RecordId) : (k.enqueue i).mask = k.mask := by
  unfold Link.enqueue; split <;> rfl

@[simp] theorem Link.enqueue_forward (k : Link) (i : RecordId) : (k.enqueue i).forward = k.forward := by
  unfold Link.enqueue; split <;> rfl

theorem Link.mem_enqueue (k : Link) (i j : RecordId) : j ∈ (k.enqueue i).notices ↔ j = i ∨ j ∈ k.notices := by
  unfold Link.enqueue
  split <;> simp_all [or_comm]

theorem Link.enqueue_nodup {k : Link} (i : RecordId) (h : k.notices.Nodup) : (k.enqueue i).notices.Nodup := by
  unfold Link.enqueue
  split
  · exact h
  · rename_i hi
    simp only [List.nodup_append, h, List.nodup_cons, List.not_mem_nil, not_false_eq_true, List.nodup_nil, and_self,
      List.mem_cons, or_false, true_and]
    exact fun a ha b hb e => hi (hb ▸ e ▸ ha)

@[simp] theorem State.queueOn_pending (s : State) (l : Side) (i : RecordId) : (s.queueOn l i).pending = s.pending := by
  unfold State.queueOn; split <;> rfl

@[simp] theorem State.notify_pending (s : State) (i : RecordId) : (s.notify i).pending = s.pending := by
  unfold State.notify; dsimp only; split <;> split <;> simp

@[simp] theorem State.queueOn_inReset (s : State) (l : Side) (i : RecordId) : (s.queueOn l i).inReset = s.inReset := by
  unfold State.queueOn; split <;> rfl

@[simp] theorem State.notify_inReset (s : State) (i : RecordId) : (s.notify i).inReset = s.inReset := by
  unfold State.notify; dsimp only; split <;> split <;> simp

@[simp] theorem State.queueOn_tick (s : State) (l : Side) (i : RecordId) : (s.queueOn l i).tick = s.tick := by
  unfold State.queueOn; split <;> rfl

@[simp] theorem State.notify_tick (s : State) (i : RecordId) : (s.notify i).tick = s.tick := by
  unfold State.notify; dsimp only; split <;> split <;> simp

@[simp] theorem State.queueOn_timing (s : State) (l : Side) (i : RecordId) : (s.queueOn l i).timing = s.timing := by
  unfold State.queueOn; split <;> rfl

@[simp] theorem State.notify_timing (s : State) (i : RecordId) : (s.notify i).timing = s.timing := by
  unfold State.notify; dsimp only; split <;> split <;> simp

@[simp] theorem State.queueOn_ties (s : State) (l : Side) (i : RecordId) : (s.queueOn l i).ties = s.ties := by
  unfold State.queueOn; split <;> rfl

@[simp] theorem State.queueOn_opened (s : State) (l : Side) (i : RecordId) : (s.queueOn l i).opened = s.opened := by
  unfold State.queueOn; split <;> rfl

@[simp] theorem State.notify_ties (s : State) (i : RecordId) : (s.notify i).ties = s.ties := by
  unfold State.notify; dsimp only; split <;> split <;> simp

@[simp] theorem State.notify_opened (s : State) (i : RecordId) : (s.notify i).opened = s.opened := by
  unfold State.notify; dsimp only; split <;> split <;> simp

@[simp] theorem State.queueOn_sides (s : State) (l : Side) (i : RecordId) : (s.queueOn l i).sides = s.sides := by
  unfold State.queueOn; split <;> rfl

@[simp] theorem State.notify_sides (s : State) (i : RecordId) : (s.notify i).sides = s.sides := by
  unfold State.notify; dsimp only; split <;> split <;> simp

@[simp] theorem State.queueOn_artic (s : State) (l : Side) (i : RecordId) : (s.queueOn l i).artic = s.artic := by
  unfold State.queueOn; split <;> rfl

@[simp] theorem State.notify_artic (s : State) (i : RecordId) : (s.notify i).artic = s.artic := by
  unfold State.notify; dsimp only; split <;> split <;> simp

@[simp] theorem State.queueOn_frameStore (s : State) (l : Side) (i : RecordId) : (s.queueOn l i).frameStore = s.frameStore := by
  unfold State.queueOn; split <;> rfl

@[simp] theorem State.notify_frameStore (s : State) (i : RecordId) : (s.notify i).frameStore = s.frameStore := by
  unfold State.notify; dsimp only; split <;> split <;> simp

@[simp] theorem State.queueOn_tableStore (s : State) (l : Side) (i : RecordId) : (s.queueOn l i).tableStore = s.tableStore := by
  unfold State.queueOn; split <;> rfl

@[simp] theorem State.notify_tableStore (s : State) (i : RecordId) : (s.notify i).tableStore = s.tableStore := by
  unfold State.notify; dsimp only; split <;> split <;> simp

@[simp] theorem State.queueOn_corrCond (s : State) (l : Side) (i : RecordId) : (s.queueOn l i).corrCond = s.corrCond := by
  unfold State.queueOn; split <;> rfl

@[simp] theorem State.notify_corrCond (s : State) (i : RecordId) : (s.notify i).corrCond = s.corrCond := by
  unfold State.notify; dsimp only; split <;> split <;> simp

@[simp] theorem State.queueOn_locks (s : State) (l : Side) (i : RecordId) : (s.queueOn l i).locks = s.locks := by
  unfold State.queueOn; split <;> rfl

@[simp] theorem State.notify_locks (s : State) (i : RecordId) : (s.notify i).locks = s.locks := by
  unfold State.notify; dsimp only; split <;> split <;> simp

@[simp] theorem State.queueOn_faults (s : State) (l : Side) (i : RecordId) : (s.queueOn l i).faults = s.faults := by
  unfold State.queueOn; split <;> rfl

@[simp] theorem State.notify_faults (s : State) (i : RecordId) : (s.notify i).faults = s.faults := by
  unfold State.notify; dsimp only; split <;> split <;> simp

@[simp] theorem State.notify_side (s : State) (i : RecordId) (x : Side) : (s.notify i).side x = s.side x := by
  simp [State.side]

@[simp] theorem State.notify_link_state (s : State) (i : RecordId) (l : Side) :
    ((s.notify i).link l).state = (s.link l).state := by
  rw [State.notify_link]; split <;> simp

@[simp] theorem State.notify_link_beenUp (s : State) (i : RecordId) (l : Side) :
    ((s.notify i).link l).beenUp = (s.link l).beenUp := by
  rw [State.notify_link]; split <;> simp

@[simp] theorem State.notify_link_linkCond (s : State) (i : RecordId) (l : Side) :
    ((s.notify i).link l).linkCond = (s.link l).linkCond := by
  rw [State.notify_link]; split <;> simp

@[simp] theorem State.notify_link_replies (s : State) (i : RecordId) (l : Side) :
    ((s.notify i).link l).replies = (s.link l).replies := by
  rw [State.notify_link]; split <;> simp

@[simp] theorem State.notify_link_overrun (s : State) (i : RecordId) (l : Side) :
    ((s.notify i).link l).overrun = (s.link l).overrun := by
  rw [State.notify_link]; split <;> simp

@[simp] theorem State.notify_link_mask (s : State) (i : RecordId) (l : Side) :
    ((s.notify i).link l).mask = (s.link l).mask := by
  rw [State.notify_link]; split <;> simp

@[simp] theorem State.notify_link_forward (s : State) (i : RecordId) (l : Side) :
    ((s.notify i).link l).forward = (s.link l).forward := by
  rw [State.notify_link]; split <;> simp

theorem State.notify_link_nodup (s : State) (i : RecordId) (l : Side) (h : (s.link l).notices.Nodup) :
    ((s.notify i).link l).notices.Nodup := by
  rw [State.notify_link]
  split
  · exact Link.enqueue_nodup i h
  · exact h

@[simp] theorem State.setRecord_routesTo (s : State) (i j : RecordId) (r : FaultRecord) (l : Side) :
    (s.setRecord i r).routesTo j l = s.routesTo j l := rfl

/-! ## Settings (R177) -/

/-- The record after a setting at a tick (R177). -/
def FaultRecord.setAt (r : FaultRecord) (now : Tick) (detail : Word) : FaultRecord :=
  match r.state with
  | .clear =>
    { state := .active, count := satSucc r.count 255, firstActive := if r.count = 0 then some now else r.firstActive,
      lastChange := some now, detail := detail }
  | .active => { r with detail := detail }
  | .acked => { r with detail := detail }

/-- The record after an end at a tick (R178). -/
def FaultRecord.endedAt (r : FaultRecord) (now : Tick) : FaultRecord :=
  match r.state with
  | .clear => r
  | .active => { r with state := .clear, lastChange := some now }
  | .acked => { r with state := .clear, lastChange := some now }

/-- A setting replaces its record and no other. -/
@[simp] theorem State.raise_faults (s : State) (i : RecordId) (d : Word) :
    (s.raise i d).faults = s.faults.set i ((s.faults.get i).setAt s.tick d) := by
  unfold State.raise FaultRecord.setAt
  dsimp only
  cases h : (s.faults.get i).state <;> simp

/-- A setting that finds its record CLEAR queues a notice, any other changes no link. -/
theorem State.raise_link (s : State) (i : RecordId) (d : Word) (l : Side) :
    (s.raise i d).link l =
      if (s.faults.get i).state = .clear ∧ s.routesTo i l = true ∧ admits (s.link l).mask i = true then
        (s.link l).enqueue i
      else s.link l := by
  unfold State.raise
  dsimp only
  cases h : (s.faults.get i).state <;> simp [State.notify_link] <;> congr

/-! ## Ends (R178) -/

theorem FaultTable.set_get (f : FaultTable) (i : RecordId) : f.set i (f.get i) = f := by
  cases i with
  | side c x => cases x <;> cases c <;> rfl
  | part p => cases p <;> rfl

/-- An end replaces its record and no other. -/
@[simp] theorem State.endFault_faults (s : State) (i : RecordId) :
    (s.endFault i).faults = s.faults.set i ((s.faults.get i).endedAt s.tick) := by
  unfold State.endFault FaultRecord.endedAt
  dsimp only
  cases h : (s.faults.get i).state <;> simp [FaultTable.set_get]

/-- An end that finds its record in force queues a notice, any other changes no link. -/
theorem State.endFault_link (s : State) (i : RecordId) (l : Side) :
    (s.endFault i).link l =
      if (s.faults.get i).state ≠ .clear ∧ s.routesTo i l = true ∧ admits (s.link l).mask i = true then
        (s.link l).enqueue i
      else s.link l := by
  unfold State.endFault
  dsimp only
  cases h : (s.faults.get i).state <;> simp [State.notify_link] <;> congr

/-! ## What reports leave unchanged -/

@[simp] theorem State.raise_pending (s : State) (i : RecordId) (d : Word) : (s.raise i d).pending = s.pending := by
  unfold State.raise; dsimp only; split <;> simp

@[simp] theorem State.endFault_pending (s : State) (i : RecordId) : (s.endFault i).pending = s.pending := by
  unfold State.endFault; dsimp only; split <;> simp

@[simp] theorem State.raise_inReset (s : State) (i : RecordId) (d : Word) : (s.raise i d).inReset = s.inReset := by
  unfold State.raise; dsimp only; split <;> simp

@[simp] theorem State.endFault_inReset (s : State) (i : RecordId) : (s.endFault i).inReset = s.inReset := by
  unfold State.endFault; dsimp only; split <;> simp

@[simp] theorem State.raise_tick (s : State) (i : RecordId) (d : Word) : (s.raise i d).tick = s.tick := by
  unfold State.raise; dsimp only; split <;> simp

@[simp] theorem State.endFault_tick (s : State) (i : RecordId) : (s.endFault i).tick = s.tick := by
  unfold State.endFault; dsimp only; split <;> simp

@[simp] theorem State.raise_timing (s : State) (i : RecordId) (d : Word) : (s.raise i d).timing = s.timing := by
  unfold State.raise; dsimp only; split <;> simp

@[simp] theorem State.endFault_timing (s : State) (i : RecordId) : (s.endFault i).timing = s.timing := by
  unfold State.endFault; dsimp only; split <;> simp

@[simp] theorem State.raise_ties (s : State) (i : RecordId) (d : Word) : (s.raise i d).ties = s.ties := by
  unfold State.raise; dsimp only; split <;> simp

@[simp] theorem State.raise_opened (s : State) (i : RecordId) (d : Word) : (s.raise i d).opened = s.opened := by
  unfold State.raise; dsimp only; split <;> simp

@[simp] theorem State.endFault_ties (s : State) (i : RecordId) : (s.endFault i).ties = s.ties := by
  unfold State.endFault; dsimp only; split <;> simp

@[simp] theorem State.endFault_opened (s : State) (i : RecordId) : (s.endFault i).opened = s.opened := by
  unfold State.endFault; dsimp only; split <;> simp

@[simp] theorem State.raise_sides (s : State) (i : RecordId) (d : Word) : (s.raise i d).sides = s.sides := by
  unfold State.raise; dsimp only; split <;> simp

@[simp] theorem State.endFault_sides (s : State) (i : RecordId) : (s.endFault i).sides = s.sides := by
  unfold State.endFault; dsimp only; split <;> simp

@[simp] theorem State.raise_artic (s : State) (i : RecordId) (d : Word) : (s.raise i d).artic = s.artic := by
  unfold State.raise; dsimp only; split <;> simp

@[simp] theorem State.endFault_artic (s : State) (i : RecordId) : (s.endFault i).artic = s.artic := by
  unfold State.endFault; dsimp only; split <;> simp

@[simp] theorem State.raise_frameStore (s : State) (i : RecordId) (d : Word) : (s.raise i d).frameStore = s.frameStore := by
  unfold State.raise; dsimp only; split <;> simp

@[simp] theorem State.endFault_frameStore (s : State) (i : RecordId) : (s.endFault i).frameStore = s.frameStore := by
  unfold State.endFault; dsimp only; split <;> simp

@[simp] theorem State.raise_tableStore (s : State) (i : RecordId) (d : Word) : (s.raise i d).tableStore = s.tableStore := by
  unfold State.raise; dsimp only; split <;> simp

@[simp] theorem State.endFault_tableStore (s : State) (i : RecordId) : (s.endFault i).tableStore = s.tableStore := by
  unfold State.endFault; dsimp only; split <;> simp

@[simp] theorem State.raise_corrCond (s : State) (i : RecordId) (d : Word) : (s.raise i d).corrCond = s.corrCond := by
  unfold State.raise; dsimp only; split <;> simp

@[simp] theorem State.endFault_corrCond (s : State) (i : RecordId) : (s.endFault i).corrCond = s.corrCond := by
  unfold State.endFault; dsimp only; split <;> simp

@[simp] theorem State.raise_locks (s : State) (i : RecordId) (d : Word) : (s.raise i d).locks = s.locks := by
  unfold State.raise; dsimp only; split <;> simp

@[simp] theorem State.endFault_locks (s : State) (i : RecordId) : (s.endFault i).locks = s.locks := by
  unfold State.endFault; dsimp only; split <;> simp

@[simp] theorem State.raise_side (s : State) (i : RecordId) (d : Word) (x : Side) : (s.raise i d).side x = s.side x := by
  simp [State.side]

@[simp] theorem State.endFault_side (s : State) (i : RecordId) (x : Side) : (s.endFault i).side x = s.side x := by
  simp [State.side]

@[simp] theorem State.raise_link_state (s : State) (i : RecordId) (d : Word) (l : Side) :
    ((s.raise i d).link l).state = (s.link l).state := by
  rw [State.raise_link]; split <;> simp

@[simp] theorem State.endFault_link_state (s : State) (i : RecordId) (l : Side) :
    ((s.endFault i).link l).state = (s.link l).state := by
  rw [State.endFault_link]; split <;> simp

@[simp] theorem State.raise_link_beenUp (s : State) (i : RecordId) (d : Word) (l : Side) :
    ((s.raise i d).link l).beenUp = (s.link l).beenUp := by
  rw [State.raise_link]; split <;> simp

@[simp] theorem State.endFault_link_beenUp (s : State) (i : RecordId) (l : Side) :
    ((s.endFault i).link l).beenUp = (s.link l).beenUp := by
  rw [State.endFault_link]; split <;> simp

@[simp] theorem State.raise_link_linkCond (s : State) (i : RecordId) (d : Word) (l : Side) :
    ((s.raise i d).link l).linkCond = (s.link l).linkCond := by
  rw [State.raise_link]; split <;> simp

@[simp] theorem State.endFault_link_linkCond (s : State) (i : RecordId) (l : Side) :
    ((s.endFault i).link l).linkCond = (s.link l).linkCond := by
  rw [State.endFault_link]; split <;> simp

@[simp] theorem State.raise_link_replies (s : State) (i : RecordId) (d : Word) (l : Side) :
    ((s.raise i d).link l).replies = (s.link l).replies := by
  rw [State.raise_link]; split <;> simp

@[simp] theorem State.endFault_link_replies (s : State) (i : RecordId) (l : Side) :
    ((s.endFault i).link l).replies = (s.link l).replies := by
  rw [State.endFault_link]; split <;> simp

@[simp] theorem State.raise_link_overrun (s : State) (i : RecordId) (d : Word) (l : Side) :
    ((s.raise i d).link l).overrun = (s.link l).overrun := by
  rw [State.raise_link]; split <;> simp

@[simp] theorem State.endFault_link_overrun (s : State) (i : RecordId) (l : Side) :
    ((s.endFault i).link l).overrun = (s.link l).overrun := by
  rw [State.endFault_link]; split <;> simp

@[simp] theorem State.raise_link_mask (s : State) (i : RecordId) (d : Word) (l : Side) :
    ((s.raise i d).link l).mask = (s.link l).mask := by
  rw [State.raise_link]; split <;> simp

@[simp] theorem State.endFault_link_mask (s : State) (i : RecordId) (l : Side) :
    ((s.endFault i).link l).mask = (s.link l).mask := by
  rw [State.endFault_link]; split <;> simp

@[simp] theorem State.raise_link_forward (s : State) (i : RecordId) (d : Word) (l : Side) :
    ((s.raise i d).link l).forward = (s.link l).forward := by
  rw [State.raise_link]; split <;> simp

@[simp] theorem State.endFault_link_forward (s : State) (i : RecordId) (l : Side) :
    ((s.endFault i).link l).forward = (s.link l).forward := by
  rw [State.endFault_link]; split <;> simp

theorem State.raise_link_nodup (s : State) (i : RecordId) (d : Word) (l : Side) (h : (s.link l).notices.Nodup) :
    ((s.raise i d).link l).notices.Nodup := by
  rw [State.raise_link]
  split
  · exact Link.enqueue_nodup i h
  · exact h

theorem State.endFault_link_nodup (s : State) (i : RecordId) (l : Side) (h : (s.link l).notices.Nodup) :
    ((s.endFault i).link l).notices.Nodup := by
  rw [State.endFault_link]
  split
  · exact Link.enqueue_nodup i h
  · exact h

end Sys2Proof.Machine
end

