-- ==== Sys2Proof/Laws/Stores.lean ====
section
/-! SUPPORT. What the reads of the two memories can do: one frame for the table store's operations, one for the frame store's reads,
both closed under composition, and for each operation the fact that it keeps to its frame (R120 to R127, R156, R157, R169, R171). -/

namespace Sys2Proof.Machine

/-! ## What a report does, in one place -/

/-- A report on a record: other records, and everything of the state but the records and the notices, stay. -/
structure State.Reported (s t : State) (records : List RecordId) : Prop where
  rest : { t with links := s.links, faults := s.faults } = s
  link : ∀ l, { t.link l with notices := (s.link l).notices } = s.link l
  nodup : ∀ l, (s.link l).notices.Nodup → (t.link l).notices.Nodup
  faults : ∀ i, i ∉ records → t.faults.get i = s.faults.get i

theorem State.Reported.refl (s : State) (rs : List RecordId) : s.Reported s rs :=
  ⟨rfl, fun _ => rfl, fun _ h => h, fun _ _ => rfl⟩

theorem Link.enqueue_eq (k : Link) (i : RecordId) : { k.enqueue i with notices := k.notices } = k := by
  unfold Link.enqueue; split <;> rfl

theorem State.eq_of_fields {s t : State} (h1 : t.pending = s.pending) (h2 : t.inReset = s.inReset) (h3 : t.tick = s.tick)
    (h4 : t.timing = s.timing) (h5 : t.ties = s.ties) (h5b : t.opened = s.opened) (h6 : t.sides = s.sides) (h7 : t.artic = s.artic)
    (h8 : t.frameStore = s.frameStore) (h9 : t.tableStore = s.tableStore) (h10 : t.corrCond = s.corrCond)
    (h11 : t.locks = s.locks) : { t with links := s.links, faults := s.faults } = s := by
  cases s; cases t; simp_all

theorem State.raise_reported (s : State) (i : RecordId) (d : Word) : s.Reported (s.raise i d) [i] where
  rest := by apply State.eq_of_fields <;> simp
  link l := by rw [State.raise_link]; split <;> simp
  nodup l h := State.raise_link_nodup s i d l h
  faults j hj := by simp only [State.raise_faults, FaultTable.get_set]; rw [if_neg (by simpa using hj)]

theorem State.endFault_reported (s : State) (i : RecordId) : s.Reported (s.endFault i) [i] where
  rest := by apply State.eq_of_fields <;> simp
  link l := by rw [State.endFault_link]; split <;> simp
  nodup l h := State.endFault_link_nodup s i l h
  faults j hj := by simp only [State.endFault_faults, FaultTable.get_set]; rw [if_neg (by simpa using hj)]

/-! ## The table store's frame -/

/-- What the table store may do for a side while it reads, corrects, loses and writes words: its own words, log and injection, the
records ERROR_CORRECTED and TABLE_POISONED of the side with their notices, corr_cond, and of the side's table state the poison, the
length and the two flags. The active banks, the shadow states and the pending commit stay. -/
structure State.TableFrame (s t : State) (x : Side) : Prop where
  rest : { t with sides := s.sides, links := s.links, faults := s.faults, tableStore := s.tableStore, corrCond := s.corrCond } = s
  other : t.side x.other = s.side x.other
  side : { t.side x with tables := (s.side x).tables } = s.side x
  commit : (t.side x).tables.commit = (s.side x).tables.commit
  active : ∀ tb, ((t.side x).tables.ctl.get tb).active = ((s.side x).tables.ctl.get tb).active
  shadow : ∀ tb, ((t.side x).tables.ctl.get tb).shadow = ((s.side x).tables.ctl.get tb).shadow
  link : ∀ l, { t.link l with notices := (s.link l).notices } = s.link l
  nodup : ∀ l, (s.link l).notices.Nodup → (t.link l).notices.Nodup
  share : t.tableStore.leftShare = s.tableStore.leftShare
  wf : Mem.wf tableDefault s.tableStore.mem = true → Mem.wf tableDefault t.tableStore.mem = true
  faults : ∀ i, i ≠ .part .errorCorrected → i ≠ .side .tablePoisoned x → t.faults.get i = s.faults.get i

theorem State.TableFrame.refl (s : State) (x : Side) : s.TableFrame s x :=
  ⟨rfl, rfl, rfl, rfl, fun _ => rfl, fun _ => rfl, fun _ => rfl, fun _ h => h, rfl, fun h => h, fun _ _ _ => rfl⟩

theorem State.TableFrame.trans {s t u : State} {x : Side} (h : s.TableFrame t x) (k : t.TableFrame u x) : s.TableFrame u x where
  rest := by rw [← h.rest, ← k.rest]
  other := k.other.trans h.other
  side := by rw [← h.side, ← k.side]
  commit := k.commit.trans h.commit
  active tb := (k.active tb).trans (h.active tb)
  shadow tb := (k.shadow tb).trans (h.shadow tb)
  link l := by rw [← h.link l, ← k.link l]
  nodup l hn := k.nodup l (h.nodup l hn)
  share := k.share.trans h.share
  wf hw := k.wf (h.wf hw)
  faults i h1 h2 := (k.faults i h1 h2).trans (h.faults i h1 h2)

/-! Each field that the frame leaves, by name. -/

theorem State.TableFrame.pending {s t : State} {x : Side} (h : s.TableFrame t x) : t.pending = s.pending := by
  have := congrArg State.pending h.rest; exact this

theorem State.TableFrame.inReset {s t : State} {x : Side} (h : s.TableFrame t x) : t.inReset = s.inReset := by
  have := congrArg State.inReset h.rest; exact this

theorem State.TableFrame.tick {s t : State} {x : Side} (h : s.TableFrame t x) : t.tick = s.tick := by
  have := congrArg State.tick h.rest; exact this

theorem State.TableFrame.timing {s t : State} {x : Side} (h : s.TableFrame t x) : t.timing = s.timing := by
  have := congrArg State.timing h.rest; exact this

theorem State.TableFrame.ties {s t : State} {x : Side} (h : s.TableFrame t x) : t.ties = s.ties := by
  have := congrArg State.ties h.rest; exact this

theorem State.TableFrame.opened {s t : State} {x : Side} (h : s.TableFrame t x) : t.opened = s.opened := by
  have := congrArg State.opened h.rest; exact this

theorem State.TableFrame.artic {s t : State} {x : Side} (h : s.TableFrame t x) : t.artic = s.artic := by
  have := congrArg State.artic h.rest; exact this

theorem State.TableFrame.locks {s t : State} {x : Side} (h : s.TableFrame t x) : t.locks = s.locks := by
  have := congrArg State.locks h.rest; exact this

theorem State.TableFrame.frameStore {s t : State} {x : Side} (h : s.TableFrame t x) : t.frameStore = s.frameStore := by
  have := congrArg State.frameStore h.rest; exact this

theorem State.TableFrame.port {s t : State} {x : Side} (h : s.TableFrame t x) : (t.side x).port = (s.side x).port := by
  have := congrArg SideState.port h.side; exact this

theorem State.TableFrame.history {s t : State} {x : Side} (h : s.TableFrame t x) : (t.side x).history = (s.side x).history := by
  have := congrArg SideState.history h.side; exact this

theorem State.TableFrame.nextSerial {s t : State} {x : Side} (h : s.TableFrame t x) : (t.side x).nextSerial = (s.side x).nextSerial := by
  have := congrArg SideState.nextSerial h.side; exact this

theorem State.TableFrame.bus {s t : State} {x : Side} (h : s.TableFrame t x) : (t.side x).bus = (s.side x).bus := by
  have := congrArg SideState.bus h.side; exact this

theorem State.TableFrame.exposure {s t : State} {x : Side} (h : s.TableFrame t x) : (t.side x).exposure = (s.side x).exposure := by
  have := congrArg SideState.exposure h.side; exact this

theorem State.TableFrame.dev {s t : State} {x : Side} (h : s.TableFrame t x) : (t.side x).dev = (s.side x).dev := by
  have := congrArg SideState.dev h.side; exact this

theorem State.TableFrame.glare {s t : State} {x : Side} (h : s.TableFrame t x) : (t.side x).glare = (s.side x).glare := by
  have := congrArg SideState.glare h.side; exact this

theorem State.TableFrame.framing {s t : State} {x : Side} (h : s.TableFrame t x) : (t.side x).framing = (s.side x).framing := by
  have := congrArg SideState.framing h.side; exact this

theorem State.TableFrame.comp {s t : State} {x : Side} (h : s.TableFrame t x) : (t.side x).comp = (s.side x).comp := by
  have := congrArg SideState.comp h.side; exact this

theorem State.TableFrame.store {s t : State} {x : Side} (h : s.TableFrame t x) : (t.side x).store = (s.side x).store := by
  have := congrArg SideState.store h.side; exact this

theorem State.TableFrame.link_state {s t : State} {x : Side} (h : s.TableFrame t x) (l : Side) : (t.link l).state = (s.link l).state := by
  have := congrArg Link.state (h.link l); exact this

theorem State.TableFrame.link_beenUp {s t : State} {x : Side} (h : s.TableFrame t x) (l : Side) : (t.link l).beenUp = (s.link l).beenUp := by
  have := congrArg Link.beenUp (h.link l); exact this

theorem State.TableFrame.link_linkCond {s t : State} {x : Side} (h : s.TableFrame t x) (l : Side) : (t.link l).linkCond = (s.link l).linkCond := by
  have := congrArg Link.linkCond (h.link l); exact this

theorem State.TableFrame.link_replies {s t : State} {x : Side} (h : s.TableFrame t x) (l : Side) : (t.link l).replies = (s.link l).replies := by
  have := congrArg Link.replies (h.link l); exact this

theorem State.TableFrame.link_overrun {s t : State} {x : Side} (h : s.TableFrame t x) (l : Side) : (t.link l).overrun = (s.link l).overrun := by
  have := congrArg Link.overrun (h.link l); exact this

theorem State.TableFrame.link_mask {s t : State} {x : Side} (h : s.TableFrame t x) (l : Side) : (t.link l).mask = (s.link l).mask := by
  have := congrArg Link.mask (h.link l); exact this

theorem State.TableFrame.link_forward {s t : State} {x : Side} (h : s.TableFrame t x) (l : Side) : (t.link l).forward = (s.link l).forward := by
  have := congrArg Link.forward (h.link l); exact this

/-- A report on one of the two records of the frame keeps to it. -/
theorem State.Reported.tableFrame {s t : State} {x : Side} {i : RecordId} (h : s.Reported t [i])
    (hi : i = .part .errorCorrected ∨ i = .side .tablePoisoned x) : s.TableFrame t x := by
  have hs : t.sides = s.sides := by have := congrArg State.sides h.rest; exact this
  have ht : t.tableStore = s.tableStore := by have := congrArg State.tableStore h.rest; exact this
  have hx : ∀ y, t.side y = s.side y := fun y => by simp [State.side, hs]
  refine ⟨?_, hx _, by rw [hx], by rw [hx], fun _ => by rw [hx], fun _ => by rw [hx], h.link, h.nodup, by rw [ht],
    fun hw => by rw [ht]; exact hw, fun j h1 h2 => h.faults j ?_⟩
  · rw [← h.rest]
  · rcases hi with rfl | rfl <;> simpa

theorem State.writeTableWords_frame (s : State) (x : Side) (addr : Nat) (vs : List Word) :
    s.TableFrame (s.writeTableWords addr vs) x where
  rest := rfl
  other := rfl
  side := rfl
  commit := rfl
  active _ := rfl
  shadow _ := rfl
  link _ := rfl
  nodup _ h := h
  share := rfl
  wf h := Mem.wf_writeBlock h _ _
  faults _ _ _ := rfl

theorem State.offerTable_frame (s : State) (x : Side) (e : LogRecord) : s.TableFrame (s.offerTable e) x :=
  ⟨rfl, rfl, rfl, rfl, fun _ => rfl, fun _ => rfl, fun _ => rfl, fun _ h => h, rfl, fun h => h, fun _ _ _ => rfl⟩

theorem State.corrCond_frame (s : State) (x : Side) (b : Bool) : s.TableFrame { s with corrCond := b } x :=
  ⟨rfl, rfl, rfl, rfl, fun _ => rfl, fun _ => rfl, fun _ => rfl, fun _ h => h, rfl, fun h => h, fun _ _ _ => rfl⟩

theorem State.reportCorrected_frame (s : State) (x : Side) (addr : Nat) : s.TableFrame (s.reportCorrected addr) x :=
  (State.corrCond_frame s x true).trans ((State.raise_reported _ _ _).tableFrame (.inl rfl))

theorem State.injection_frame (s : State) (x : Side) (j : Option Injection) :
    s.TableFrame { s with tableStore := { s.tableStore with injection := j } } x :=
  ⟨rfl, rfl, rfl, rfl, fun _ => rfl, fun _ => rfl, fun _ => rfl, fun _ h => h, rfl, fun h => h, fun _ _ _ => rfl⟩

/-- A read of a word of the table store keeps to the frame (R156). -/
theorem State.readTableWord_frame (s : State) (x : Side) (addr : Nat) : s.TableFrame (s.readTableWord x addr).2 x := by
  unfold State.readTableWord
  dsimp only
  split
  · exact State.injection_frame s x _
  · exact (((State.injection_frame s x _).trans (State.writeTableWords_frame _ x _ _)).trans
      (State.offerTable_frame _ x _)).trans (State.reportCorrected_frame _ x _)
  · exact (State.injection_frame s x _).trans (State.offerTable_frame _ x _)

/-- A word stored without error and hit by no injection reads as stored, and the read changes nothing. -/
theorem State.readTableWord_clean (s : State) (x : Side) (addr : Nat) (h : s.tableStore.injection = none)
    (hc : checkWord 5 (Mem.read tableDefault s.tableStore.mem addr) = .clean) :
    s.readTableWord x addr = (some (dataOf 16 (Mem.read tableDefault s.tableStore.mem addr)), s) := by
  have e : { s with tableStore := { s.tableStore with injection := none } } = s := by
    rw [← h]
  simp [State.readTableWord, takeInjection, h, asRead, hc, e]

/-- A change of the flags and the poison of a side keeps to the frame, when it keeps active banks, shadow states and commit. -/
theorem State.onTables_frame (s : State) (x : Side) (f : SideTables → SideTables) 
    (hc : (f (s.side x).tables).commit = (s.side x).tables.commit)
    (ha : ∀ tb, ((f (s.side x).tables).ctl.get tb).active = ((s.side x).tables.ctl.get tb).active)
    (hs : ∀ tb, ((f (s.side x).tables).ctl.get tb).shadow = ((s.side x).tables.ctl.get tb).shadow) :
    s.TableFrame (s.onSide x (fun d => { d with tables := f d.tables })) x where
  rest := rfl
  other := by simp
  side := by simp
  commit := by simp [hc]
  active tb := by simp [ha]
  shadow tb := by simp [hs]
  link _ := rfl
  nodup _ h := h
  share := rfl
  wf h := h
  faults _ _ _ := rfl

theorem State.raisePoison_frame (s : State) (x : Side) (d : Nat) : s.TableFrame (s.raisePoison x d) x :=
  (State.onTables_frame s x (fun d => { d with poisonCond := true }) rfl (fun _ => rfl) (fun _ => rfl)).trans
    ((State.raise_reported _ _ _).tableFrame (.inr rfl))

theorem State.endPoisonIfHealed_frame (s : State) (x : Side) : s.TableFrame (s.endPoisonIfHealed x) x := by
  unfold State.endPoisonIfHealed
  dsimp only
  split
  · exact (State.onTables_frame s x (fun d => { d with poisonCond := false }) rfl (fun _ => rfl)
      (fun _ => rfl)).trans ((State.endFault_reported _ _).tableFrame (.inr rfl))
  · exact State.TableFrame.refl s x

@[simp] theorem TableCtl.setBad_active (c : TableCtl) (p : PhysBank) (v : Option Nat) : (c.setBad p v).active = c.active := by
  cases p <;> rfl

@[simp] theorem TableCtl.setBad_shadow (c : TableCtl) (p : PhysBank) (v : Option Nat) : (c.setBad p v).shadow = c.shadow := by
  cases p <;> rfl

theorem TableCtl.bad_setBad (c : TableCtl) (p q : PhysBank) (v : Option Nat) :
    (c.setBad p v).bad q = if q = p then v else c.bad q := by
  cases p <;> cases q <;> rfl

/-- The control record of a table with the bank poisoned at an index, or as it stands when the bank is poisoned already (R155). -/
def TableCtl.poisonAt (c : TableCtl) (p : PhysBank) (j : Nat) : TableCtl := if (c.bad p).isSome then c else c.setBad p (some j)

@[simp] theorem TableCtl.poisonAt_active (c : TableCtl) (p : PhysBank) (j : Nat) : (c.poisonAt p j).active = c.active := by
  unfold TableCtl.poisonAt; split <;> simp

@[simp] theorem TableCtl.poisonAt_shadow (c : TableCtl) (p : PhysBank) (j : Nat) : (c.poisonAt p j).shadow = c.shadow := by
  unfold TableCtl.poisonAt; split <;> simp

/-- A bank becomes poisoned within the frame. -/
theorem State.poisonAt_frame (s : State) (x : Side) (t : TableId) (p : PhysBank) (j : Nat) :
    s.TableFrame (s.onSide x (fun d => { d with tables := { d.tables with
      ctl := d.tables.ctl.set t (((s.side x).tables.ctl.get t).poisonAt p j) } })) x := by
  refine State.onTables_frame s x (fun d => { d with ctl := d.ctl.set t (((s.side x).tables.ctl.get t).poisonAt p j) }) rfl ?_ ?_ <;>
    intro tb <;> simp only [PerTable.get_set] <;> split <;> simp_all

/-- What a read of a word of a bank answers and leaves (R155, R156, R164). -/
theorem State.readBankWord_eq (s : State) (x : Side) (t : TableId) (p : PhysBank) (j : Nat) :
    s.readBankWord x t p j =
      (match (s.readTableWord x (tableAddr x t p j)).1 with
        | some v => (some v, (s.readTableWord x (tableAddr x t p j)).2)
        | none =>
          (none,
            if p = (((s.readTableWord x (tableAddr x t p j)).2.side x).tables.ctl.get t).active then
              ((s.readTableWord x (tableAddr x t p j)).2.onSide x (fun d => { d with tables := { d.tables with
                ctl := d.tables.ctl.set t
                  ((((s.readTableWord x (tableAddr x t p j)).2.side x).tables.ctl.get t).poisonAt p j) } })).raisePoison x t.num
            else
              (s.readTableWord x (tableAddr x t p j)).2.onSide x (fun d => { d with tables := { d.tables with
                ctl := d.tables.ctl.set t
                  ((((s.readTableWord x (tableAddr x t p j)).2.side x).tables.ctl.get t).poisonAt p j) } }))) := rfl

/-- A read of a word of a bank keeps to the frame (R155, R156, R164). -/
theorem State.readBankWord_frame (s : State) (x : Side) (t : TableId) (p : PhysBank) (j : Nat) :
    s.TableFrame (s.readBankWord x t p j).2 x := by
  have h0 := State.readTableWord_frame s x (tableAddr x t p j)
  rw [State.readBankWord_eq]
  split
  · exact h0
  · have h1 := h0.trans (State.poisonAt_frame _ x t p j)
    dsimp only
    split
    · exact h1.trans (State.raisePoison_frame _ _ _)
    · exact h1

/-! ## Runs of reads -/

theorem State.readBankWords_frame (x : Side) (t : TableId) (p : PhysBank) (js : List Nat) (s : State) :
    s.TableFrame (State.readBankWords x t p js s).2 x := by
  induction js generalizing s with
  | nil => exact State.TableFrame.refl s x
  | cons j js ih => exact (State.readBankWord_frame s x t p j).trans (ih _)

/-- A run of reads answers one word for each index. -/
@[simp] theorem State.readBankWords_length (x : Side) (t : TableId) (p : PhysBank) (js : List Nat) (s : State) :
    (State.readBankWords x t p js s).1.length = js.length := by
  induction js generalizing s with
  | nil => rfl
  | cons j js ih => simp [State.readBankWords, ih]

theorem State.copyTable_frame (s : State) (x : Side) (t : TableId) : s.TableFrame (s.copyTable x t).2 x := by
  have h := State.readBankWords_frame x t ((s.side x).tables.ctl.get t).active (List.range t.words) s
  unfold State.copyTable
  dsimp only
  split
  · exact State.TableFrame.refl s x
  · split <;> exact h

theorem State.copyTables_frame (x : Side) (ts : List TableId) (acc : PerTable (List Word)) (s : State) :
    s.TableFrame (State.copyTables x ts acc s).2 x := by
  induction ts generalizing acc s with
  | nil => exact State.TableFrame.refl s x
  | cons t ts ih => exact (State.copyTable_frame s x t).trans (ih _ _)

theorem State.checkPoisonAtStart_frame (s : State) (x : Side) : s.TableFrame (s.checkPoisonAtStart x) x := by
  unfold State.checkPoisonAtStart
  dsimp only
  split
  · exact State.TableFrame.refl s x
  · split
    · exact State.raisePoison_frame _ _ _
    · split
      · exact State.raisePoison_frame _ _ _
      · exact State.TableFrame.refl s x

theorem State.readOn_frame (x : Side) (t : TableId) (p : PhysBank) (k : Nat) (vs : List Word) (s : State) :
    s.TableFrame (State.readOn x t p k vs s).2 x := by
  induction k generalizing vs s with
  | zero => exact State.TableFrame.refl s x
  | succ k ih =>
    have h := State.readBankWord_frame s x t p vs.length
    unfold State.readOn
    dsimp only
    split
    · exact h.trans (ih _ _)
    · exact h

theorem State.runChecks_frame (x : Side) (t : TableId) (p : PhysBank) (cs : List ContentCheck) (vs : List Word) (s : State) :
    s.TableFrame (State.runChecks x t p cs vs s).2 x := by
  induction cs generalizing vs s with
  | nil =>
    have h := State.readOn_frame x t p (t.words - vs.length) vs s
    unfold State.runChecks
    dsimp only
    split <;> exact h
  | cons c cs ih =>
    have h := State.readOn_frame x t p (c.needs - vs.length) vs s
    unfold State.runChecks
    dsimp only
    split
    · exact h
    · split
      · exact h.trans (ih _ _)
      · exact h

/-- A validation keeps to the frame (R159). -/
theorem State.validate_frame (x : Side) (ts : List TableId) (s : State) : s.TableFrame (State.validate x ts s).2 x := by
  induction ts generalizing s with
  | nil => exact State.TableFrame.refl s x
  | cons t ts ih =>
    have h := State.runChecks_frame x t ((s.side x).tables.ctl.get t).active.other (contentChecks t.kind) [] s
    unfold State.validate
    dsimp only
    split
    · exact h.trans (ih _)
    · exact h
    · exact h

/-! ## Defect lists -/

theorem State.readEntry_frame (s : State) (x : Side) (i : Nat) : s.TableFrame (s.readEntry x i).2 x := by
  have h := (State.readTableWord_frame s x (poolAddr x s.tableStore.leftShare i)).trans
    (State.readTableWord_frame _ x (poolAddr x s.tableStore.leftShare i + 1))
  unfold State.readEntry
  dsimp only
  split <;> exact h

theorem State.loseEntry_frame (s : State) (x : Side) : s.TableFrame (s.loseEntry x) x :=
  (State.onTables_frame s x (fun d => { d with defectLoss := true }) rfl (fun _ => rfl) (fun _ => rfl)).trans
    (State.raisePoison_frame _ _ _)

theorem State.readEntries_frame (x : Side) (is : List Nat) (s : State) : s.TableFrame (State.readEntries x is s).2 x := by
  induction is generalizing s with
  | nil => exact State.TableFrame.refl s x
  | cons i is ih =>
    have h := State.readEntry_frame s x i
    unfold State.readEntries
    dsimp only
    split
    · exact h.trans (ih _)
    · exact (h.trans (State.loseEntry_frame _ x)).trans (ih _)

/-- The entries read are no more than the indices asked for. -/
theorem State.readEntries_length (x : Side) (is : List Nat) (s : State) : (State.readEntries x is s).1.length ≤ is.length := by
  induction is generalizing s with
  | nil => exact Nat.le_refl _
  | cons i is ih =>
    unfold State.readEntries
    dsimp only
    split
    · simpa using ih _
    · exact Nat.le_succ_of_le (ih _)

theorem State.writeList_frame (s : State) (x : Side) (es : List DefectEntry) : s.TableFrame (s.writeList x es) x :=
  (State.writeTableWords_frame s x _ _).trans
    (State.onTables_frame _ x (fun d => { d with defectCount := es.length }) rfl (fun _ => rfl) (fun _ => rfl))

/-- A read of a whole defect list keeps to the frame (R169). -/
theorem State.readList_frame (s : State) (x : Side) (edits : List DefectEdit) : s.TableFrame (s.readList x edits).2 x := by
  have h := State.readEntries_frame x (List.range (s.side x).tables.defectCount) s
  unfold State.readList
  dsimp only
  split
  · exact h.trans (State.writeList_frame _ _ _)
  · exact h

/-- A read of an empty list without edits reads nothing. -/
theorem State.readList_empty (s : State) (x : Side) (h : (s.side x).tables.defectCount = 0) : s.readList x [] = ([], s) := by
  simp [State.readList, h, State.readEntries, applyEdits]

theorem State.clearDefectLoss_frame (s : State) (x : Side) : s.TableFrame (s.clearDefectLoss x) x := by
  unfold State.clearDefectLoss
  split
  · exact (State.onTables_frame s x (fun d => { d with defectLoss := false }) rfl (fun _ => rfl) (fun _ => rfl)).trans
      (State.endPoisonIfHealed_frame _ x)
  · exact State.TableFrame.refl s x

theorem State.deviceAddress_frame (s : State) (x : Side) : s.TableFrame (s.deviceAddress x).2 x := by
  unfold State.deviceAddress
  dsimp only
  split
  · exact State.TableFrame.refl s x
  · split <;> exact State.readBankWord_frame _ _ _ _ _

/-! ## The frame store's frame -/

/-- What a composer's read of its slot may do (R120 to R124, R127): the log, the injection and the client served last, corr_cond, the
records ERROR_CORRECTED and FRAME_STORE_ERROR of the side with their notices, and of the side's slots the DAMAGED flags with the
frame-store condition. No word of the frame store changes. -/
structure State.FrameReads (s t : State) (x : Side) : Prop where
  rest : { t with sides := s.sides, links := s.links, faults := s.faults, frameStore := s.frameStore, corrCond := s.corrCond } = s
  mem : t.frameStore.mem = s.frameStore.mem
  other : t.side x.other = s.side x.other
  side : { t.side x with store := (s.side x).store } = s.side x
  slotState : ∀ n, ((t.side x).store.slots.get n).state = ((s.side x).store.slots.get n).state
  slotContent : ∀ n, ((t.side x).store.slots.get n).content = ((s.side x).store.slots.get n).content
  link : ∀ l, { t.link l with notices := (s.link l).notices } = s.link l
  nodup : ∀ l, (s.link l).notices.Nodup → (t.link l).notices.Nodup
  clean : (s.side x).store.cleanCount ≤ 60 → (t.side x).store.cleanCount ≤ 60
  faults : ∀ i, i ≠ .part .errorCorrected → i ≠ .side .frameStoreError x → t.faults.get i = s.faults.get i

theorem State.FrameReads.refl (s : State) (x : Side) : s.FrameReads s x :=
  ⟨rfl, rfl, rfl, rfl, fun _ => rfl, fun _ => rfl, fun _ => rfl, fun _ h => h, fun h => h, fun _ _ _ => rfl⟩

theorem State.FrameReads.trans {s t u : State} {x : Side} (h : s.FrameReads t x) (k : t.FrameReads u x) : s.FrameReads u x where
  rest := by rw [← h.rest, ← k.rest]
  mem := k.mem.trans h.mem
  other := k.other.trans h.other
  side := by rw [← h.side, ← k.side]
  slotState n := (k.slotState n).trans (h.slotState n)
  slotContent n := (k.slotContent n).trans (h.slotContent n)
  link l := by rw [← h.link l, ← k.link l]
  nodup l hn := k.nodup l (h.nodup l hn)
  clean hc := k.clean (h.clean hc)
  faults i h1 h2 := (k.faults i h1 h2).trans (h.faults i h1 h2)

/-! Each field that the frame leaves, by name. -/

theorem State.FrameReads.pending {s t : State} {x : Side} (h : s.FrameReads t x) : t.pending = s.pending := by
  have := congrArg State.pending h.rest; exact this

theorem State.FrameReads.inReset {s t : State} {x : Side} (h : s.FrameReads t x) : t.inReset = s.inReset := by
  have := congrArg State.inReset h.rest; exact this

theorem State.FrameReads.tick {s t : State} {x : Side} (h : s.FrameReads t x) : t.tick = s.tick := by
  have := congrArg State.tick h.rest; exact this

theorem State.FrameReads.timing {s t : State} {x : Side} (h : s.FrameReads t x) : t.timing = s.timing := by
  have := congrArg State.timing h.rest; exact this

theorem State.FrameReads.ties {s t : State} {x : Side} (h : s.FrameReads t x) : t.ties = s.ties := by
  have := congrArg State.ties h.rest; exact this

theorem State.FrameReads.opened {s t : State} {x : Side} (h : s.FrameReads t x) : t.opened = s.opened := by
  have := congrArg State.opened h.rest; exact this

theorem State.FrameReads.artic {s t : State} {x : Side} (h : s.FrameReads t x) : t.artic = s.artic := by
  have := congrArg State.artic h.rest; exact this

theorem State.FrameReads.locks {s t : State} {x : Side} (h : s.FrameReads t x) : t.locks = s.locks := by
  have := congrArg State.locks h.rest; exact this

theorem State.FrameReads.tableStore {s t : State} {x : Side} (h : s.FrameReads t x) : t.tableStore = s.tableStore := by
  have := congrArg State.tableStore h.rest; exact this

theorem State.FrameReads.port {s t : State} {x : Side} (h : s.FrameReads t x) : (t.side x).port = (s.side x).port := by
  have := congrArg SideState.port h.side; exact this

theorem State.FrameReads.history {s t : State} {x : Side} (h : s.FrameReads t x) : (t.side x).history = (s.side x).history := by
  have := congrArg SideState.history h.side; exact this

theorem State.FrameReads.nextSerial {s t : State} {x : Side} (h : s.FrameReads t x) : (t.side x).nextSerial = (s.side x).nextSerial := by
  have := congrArg SideState.nextSerial h.side; exact this

theorem State.FrameReads.bus {s t : State} {x : Side} (h : s.FrameReads t x) : (t.side x).bus = (s.side x).bus := by
  have := congrArg SideState.bus h.side; exact this

theorem State.FrameReads.exposure {s t : State} {x : Side} (h : s.FrameReads t x) : (t.side x).exposure = (s.side x).exposure := by
  have := congrArg SideState.exposure h.side; exact this

theorem State.FrameReads.dev {s t : State} {x : Side} (h : s.FrameReads t x) : (t.side x).dev = (s.side x).dev := by
  have := congrArg SideState.dev h.side; exact this

theorem State.FrameReads.glare {s t : State} {x : Side} (h : s.FrameReads t x) : (t.side x).glare = (s.side x).glare := by
  have := congrArg SideState.glare h.side; exact this

theorem State.FrameReads.framing {s t : State} {x : Side} (h : s.FrameReads t x) : (t.side x).framing = (s.side x).framing := by
  have := congrArg SideState.framing h.side; exact this

theorem State.FrameReads.comp {s t : State} {x : Side} (h : s.FrameReads t x) : (t.side x).comp = (s.side x).comp := by
  have := congrArg SideState.comp h.side; exact this

theorem State.FrameReads.tables {s t : State} {x : Side} (h : s.FrameReads t x) : (t.side x).tables = (s.side x).tables := by
  have := congrArg SideState.tables h.side; exact this

theorem State.FrameReads.link_state {s t : State} {x : Side} (h : s.FrameReads t x) (l : Side) : (t.link l).state = (s.link l).state := by
  have := congrArg Link.state (h.link l); exact this

theorem State.FrameReads.link_beenUp {s t : State} {x : Side} (h : s.FrameReads t x) (l : Side) : (t.link l).beenUp = (s.link l).beenUp := by
  have := congrArg Link.beenUp (h.link l); exact this

theorem State.FrameReads.link_linkCond {s t : State} {x : Side} (h : s.FrameReads t x) (l : Side) : (t.link l).linkCond = (s.link l).linkCond := by
  have := congrArg Link.linkCond (h.link l); exact this

theorem State.FrameReads.link_replies {s t : State} {x : Side} (h : s.FrameReads t x) (l : Side) : (t.link l).replies = (s.link l).replies := by
  have := congrArg Link.replies (h.link l); exact this

theorem State.FrameReads.link_overrun {s t : State} {x : Side} (h : s.FrameReads t x) (l : Side) : (t.link l).overrun = (s.link l).overrun := by
  have := congrArg Link.overrun (h.link l); exact this

theorem State.FrameReads.link_mask {s t : State} {x : Side} (h : s.FrameReads t x) (l : Side) : (t.link l).mask = (s.link l).mask := by
  have := congrArg Link.mask (h.link l); exact this

theorem State.FrameReads.link_forward {s t : State} {x : Side} (h : s.FrameReads t x) (l : Side) : (t.link l).forward = (s.link l).forward := by
  have := congrArg Link.forward (h.link l); exact this

/-- A report on one of the two records of the frame keeps to it. -/
theorem State.Reported.frameReads {s t : State} {x : Side} {i : RecordId} (h : s.Reported t [i])
    (hi : i = .part .errorCorrected ∨ i = .side .frameStoreError x) : s.FrameReads t x := by
  have hs : t.sides = s.sides := by have := congrArg State.sides h.rest; exact this
  have ht : t.frameStore = s.frameStore := by have := congrArg State.frameStore h.rest; exact this
  have hx : ∀ y, t.side y = s.side y := fun y => by simp [State.side, hs]
  refine ⟨?_, by rw [ht], hx _, by rw [hx], fun _ => by rw [hx], fun _ => by rw [hx], h.link, h.nodup,
    fun hw => by rw [hx]; exact hw, fun j h1 h2 => h.faults j ?_⟩
  · rw [← h.rest]
  · rcases hi with rfl | rfl <;> simpa

theorem State.offerFrame_reads (s : State) (x : Side) (e : LogRecord) : s.FrameReads (s.offerFrame e) x :=
  ⟨rfl, rfl, rfl, rfl, fun _ => rfl, fun _ => rfl, fun _ => rfl, fun _ h => h, fun h => h, fun _ _ _ => rfl⟩

theorem State.reportCorrected_reads (s : State) (x : Side) (addr : Nat) : s.FrameReads (s.reportCorrected addr) x :=
  State.FrameReads.trans (t := { s with corrCond := true })
    ⟨rfl, rfl, rfl, rfl, fun _ => rfl, fun _ => rfl, fun _ => rfl, fun _ h => h, fun h => h, fun _ _ _ => rfl⟩
    ((State.raise_reported _ _ _).frameReads (.inl rfl))

theorem State.damage_reads (s : State) (x : Side) (n : SlotNo) :
    s.FrameReads (s.onSide x (fun d =>
      { d with store := { d.store with
          slots := d.store.slots.set n { d.store.slots.get n with damaged := true },
          cleanCount := 0, fseCond := true, frameDirty := true } })) x where
  rest := rfl
  mem := rfl
  other := by simp
  side := by simp
  slotState m := by simp only [State.onSide_side, Slots.get_set]; split <;> simp_all
  slotContent m := by simp only [State.onSide_side, Slots.get_set]; split <;> simp_all
  link _ := rfl
  nodup _ h := h
  clean _ := by simp
  faults _ _ _ := rfl

theorem State.uncorrectableFrame_reads (s : State) (x : Side) (n : SlotNo) (addr syn : Nat) :
    s.FrameReads (s.uncorrectableFrame x n addr syn) x :=
  ((State.damage_reads s x n).trans (State.offerFrame_reads _ x _)).trans ((State.raise_reported _ _ _).frameReads (.inr rfl))

/-- A read of a word of the frame store keeps to the frame (R120 to R122, R127). -/
theorem State.readFrameWord_reads (s : State) (x : Side) (n : SlotNo) (addr : Nat) :
    s.FrameReads (s.readFrameWord x n addr).2 x := by
  have h0 : s.FrameReads { s with frameStore := { s.frameStore with
      injection := (takeInjection s.frameStore.injection addr).2, lastServed := composerOf x } } x :=
    ⟨rfl, rfl, rfl, rfl, fun _ => rfl, fun _ => rfl, fun _ => rfl, fun _ h => h, fun h => h, fun _ _ _ => rfl⟩
  unfold State.readFrameWord
  dsimp only
  split
  · exact h0
  · exact (h0.trans (State.offerFrame_reads _ x _)).trans (State.reportCorrected_reads _ x _)
  · exact h0.trans (State.uncorrectableFrame_reads _ x n _ _)

end Sys2Proof.Machine
end

