-- ==== Sys2Proof/Laws/Blocks.lean ====
section
/-! SUPPORT. One law for each shared operation of the blocks: bus attempts, swaps, slots, the view, the links' queues and the order of the
events that fall together. -/

namespace Sys2Proof.Machine

/-! ## Sensor bus (R18 to R20) -/

/-- The bus master after a transaction is opened for an entry (R18). -/
theorem State.openAttempt_bus (s : State) (x : Side) (e : WriteEntry) :
    ((s.openAttempt x e).side x).bus =
      { (s.side x).bus with
          state := .sending,
          transaction := some { number := s.opened, device := (s.deviceAddress x).1, register := e.register, value := e.value },
          timerStart := s.tick } := by
  have h := State.deviceAddress_frame s x
  simp only [State.openAttempt, State.onSide_side]
  simp only [State.side] at h ⊢
  have h1 := h.bus
  simp only [State.side] at h1
  rw [h1, h.tick, h.opened]

/-- The count of the transactions opened, after one more (R18). -/
theorem State.openAttempt_opened (s : State) (x : Side) (e : WriteEntry) : (s.openAttempt x e).opened = s.opened + 1 := by
  simp [State.openAttempt, (State.deviceAddress_frame s x).opened]

/-- What a change of the bus of a side leaves: everything but the bus itself, the count of the transactions opened, and what the table
store's frame may touch. -/
structure State.BusFrame (s t : State) (x : Side) : Prop where
  tables : { s with opened := t.opened, sides := s.sides.set x { s.side x with bus := (t.side x).bus } }.TableFrame t x

theorem State.BusFrame.refl (s : State) (x : Side) : s.BusFrame s x := by
  refine ⟨?_⟩
  have e : { s with opened := s.opened, sides := s.sides.set x { s.side x with bus := (s.side x).bus } } = s := by
    have : s.sides.set x (s.sides.get x) = s.sides := Sided.set_get _ _
    simp only [State.side, this]
  rw [e]
  exact State.TableFrame.refl s x

theorem State.BusFrame.onBus (s : State) (x : Side) (f : Bus → Bus) :
    s.BusFrame (s.onSide x (fun d => { d with bus := f d.bus })) x := by
  refine ⟨?_⟩
  simp only [State.onSide_side]
  exact State.TableFrame.refl _ x

theorem State.BusFrame.ofTables {s t : State} {x : Side} (h : s.TableFrame t x) : s.BusFrame t x := by
  refine ⟨?_⟩
  rw [h.bus, h.opened]
  exact (State.BusFrame.refl s x).tables.trans h

/-- The table store's frame goes over to the state with the bus replaced on both sides. -/
theorem State.TableFrame.withBus {s t : State} {x : Side} (h : s.TableFrame t x) (b : Bus) (n : Nat) :
    { s with opened := n, sides := s.sides.set x { s.side x with bus := b } }.TableFrame
      { t with opened := n, sides := t.sides.set x { t.side x with bus := b } } x where
  rest := by
    have := h.rest
    rw [← this]
  other := by
    have := h.other
    simpa [State.side] using this
  side := by
    have := congrArg (fun d : SideState => { d with bus := b }) h.side
    simp only [State.side, Sided.get_set_self] at this ⊢
    exact this
  commit := by simpa [State.side] using h.commit
  active tb := by simpa [State.side] using h.active tb
  shadow tb := by simpa [State.side] using h.shadow tb
  link l := h.link l
  nodup l hn := h.nodup l hn
  share := h.share
  wf hw := h.wf hw
  faults i h1 h2 := h.faults i h1 h2

theorem State.BusFrame.trans {s t u : State} {x : Side} (h : s.BusFrame t x) (k : t.BusFrame u x) : s.BusFrame u x := by
  refine ⟨?_⟩
  have h1 := h.tables.withBus (u.side x).bus u.opened
  have e : ({ { s with opened := t.opened, sides := s.sides.set x { s.side x with bus := (t.side x).bus } } with
      opened := u.opened,
      sides := ({ s with opened := t.opened, sides := s.sides.set x { s.side x with bus := (t.side x).bus } } : State).sides.set x
        { ({ s with opened := t.opened, sides := s.sides.set x { s.side x with bus := (t.side x).bus } } : State).side x with
          bus := (u.side x).bus } } : State) =
      { s with opened := u.opened, sides := s.sides.set x { s.side x with bus := (u.side x).bus } } := by
    simp [State.side]
  rw [e] at h1
  exact h1.trans k.tables

/-- The next transaction number is taken. -/
theorem State.BusFrame.onOpened (s : State) (x : Side) (n : Nat) : s.BusFrame { s with opened := n } x := by
  refine ⟨?_⟩
  have e : { s with opened := n, sides := s.sides.set x { s.side x with bus := (({ s with opened := n } : State).side x).bus } } =
      { s with opened := n } := by
    have : s.sides.set x (s.sides.get x) = s.sides := Sided.set_get _ _
    simp only [State.side, this]
  rw [e]
  exact State.TableFrame.refl _ x

theorem State.openAttempt_frame (s : State) (x : Side) (e : WriteEntry) : s.BusFrame (s.openAttempt x e) x :=
  ((State.BusFrame.ofTables (State.deviceAddress_frame s x)).trans (State.BusFrame.onOpened _ x _)).trans
    (State.BusFrame.onBus _ x (fun b =>
    { b with
        state := .sending,
        transaction := some { number := (s.deviceAddress x).2.opened, device := (s.deviceAddress x).1, register := e.register, value := e.value },
        timerStart := (s.deviceAddress x).2.tick }))

/-- An attempt that starts touches the bus and what the table store's frame may touch (R18). -/
theorem State.startAttempt_frame (s : State) (x : Side) : s.BusFrame (s.startAttempt x) x := by
  unfold State.startAttempt
  dsimp only
  split
  · rename_i e rest h1 h2
    exact (State.BusFrame.onBus s x (fun b =>
      { b with buffer := if e.sent then b.buffer else markSent e.group b.buffer, attempts := 1 })).trans
      (State.openAttempt_frame _ x e)
  · exact State.BusFrame.refl s x

/-- A SENDING bus starts no attempt. -/
theorem State.startAttempt_sending (s : State) (x : Side) (h : (s.side x).bus.state = .sending) : s.startAttempt x = s := by
  simp [State.startAttempt, h]

/-- An empty buffer starts no attempt. -/
theorem State.startAttempt_empty (s : State) (x : Side) (h : (s.side x).bus.buffer = []) : s.startAttempt x = s := by
  simp only [State.startAttempt, h]
  split <;> simp_all

/-- The bus master after an IDLE bus starts its first attempt on the head (R18). -/
theorem State.startAttempt_bus (s : State) (x : Side) (e : WriteEntry) (rest : List WriteEntry)
    (h : (s.side x).bus.state = .idle) (hb : (s.side x).bus.buffer = e :: rest) :
    ∃ device, ((s.startAttempt x).side x).bus =
      { (s.side x).bus with
          buffer := if e.sent then e :: rest else markSent e.group (e :: rest),
          attempts := 1, state := .sending,
          transaction := some { number := s.opened, device := device, register := e.register, value := e.value },
          timerStart := s.tick } := by
  simp only [State.startAttempt, h, hb]
  rw [State.openAttempt_bus]
  exact ⟨_, by simp [hb]; rfl⟩

/-- Marking a group as sent changes the sent flags alone. -/
theorem markSent_fields (g : BitVec 8) (buf : List WriteEntry) :
    (markSent g buf).map (fun w => (w.register, w.value, w.origin, w.group)) =
      buf.map (fun w => (w.register, w.value, w.origin, w.group)) := by
  simp only [markSent, List.map_map]
  refine List.map_congr_left (fun w _ => ?_)
  simp only [Function.comp_apply]
  split <;> rfl

@[simp] theorem markSent_length (g : BitVec 8) (buf : List WriteEntry) : (markSent g buf).length = buf.length := by
  simp [markSent]

/-- A request for an exposure group leaves at most 16 entries in a buffer of at most 16 (R15, R16). -/
theorem Bus.requestGroup_length (b : Bus) (a v c w : Word) (h : b.buffer.length ≤ 16) :
    (b.requestGroup a v c w).2.buffer.length ≤ 16 := by
  have := List.length_filter_le (fun e : WriteEntry => !e.unsentExposure) b.buffer
  unfold Bus.requestGroup
  dsimp only
  split
  · exact Nat.le_trans this h
  · simp only [List.length_append, List.length_cons, List.length_nil]; omega

/-! ## Pending exposures (R41) -/

/-- A new entry stands last, and the queue keeps at most 4. -/
theorem joinPending_getLast (q : List PendingEntry) (e : PendingEntry) : (joinPending q e).getLast? = some e := by
  simp [joinPending]

theorem joinPending_length (q : List PendingEntry) (e : PendingEntry) : (joinPending q e).length ≤ 4 := by
  simp only [joinPending, List.length_append, List.length_drop, List.length_cons, List.length_nil]
  omega

/-- The three steps of R41, of the entries `kept` by the first of them. -/
theorem joinPending_eq (q kept : List PendingEntry) (e : PendingEntry)
    (h : kept = q.filter (fun p => !(decide (p.target = e.target) || later p.target e.target))) :
    (kept.length < 4 → joinPending q e = kept ++ [e]) ∧ (kept.length = 4 → joinPending q e = kept.tail ++ [e]) := by
  subst h
  refine ⟨fun h => ?_, fun h => ?_⟩
  · rw [joinPending, Nat.sub_eq_zero_of_le (by omega), List.drop_zero]
  · rw [joinPending, h, List.drop_one]

/-! ## Match (R30) -/

/-- A frame matches an in-force record exactly when both values agree and the camera keeps to Imax_eff (R30). -/
theorem Exposure.matchFrame_matched (e : Exposure) (l : Limits) (iEmb code : Nat) (r : ExpRecord) (h : e.inForce = some r) :
    (e.matchFrame l iEmb code).1 = .matched ↔
      iEmb = r.integ ∧ min (code * 32) l.aMax = r.analog ∧ iEmb ≤ l.imaxEff := by
  simp only [Exposure.matchFrame, h]
  split
  · exact iff_of_true rfl ‹_›
  · exact iff_of_false (by simp) ‹_›

/-! ## Defect list (R169, R170) -/

/-- The loss of an entry by DEFECT_ENTRY keeps to the frame of the table store's operations. -/
theorem State.dropEntry_frame (s : State) (x : Side) (i : Nat) : s.TableFrame (s.dropEntry x i) x :=
  State.writeList_frame s x _

/-- The list that an entry leaves is one shorter (R169). -/
theorem State.dropEntry_count (s : State) (x : Side) (i : Nat) (h : i < (s.side x).tables.defectCount) :
    ((s.dropEntry x i).side x).tables.defectCount = (s.side x).tables.defectCount - 1 := by
  simp [State.dropEntry, State.writeList, List.length_eraseIdx, h]

/-! ## Commit (R162) -/

theorem ReplyEntry.fill_tag (x : Side) (d : List Word) (e : ReplyEntry) : (e.fill x d).tag = e.tag := by
  cases e with
  | ready r => rfl
  | reserved tag y =>
    show (if y = x then _ else _ : ReplyEntry).tag = tag
    split <;> rfl

@[simp] theorem swapTables_get (set : BitVec 13) (ctl : PerTable TableCtl) (t : TableId) :
    (swapTables set ctl).get t = if set.getLsbD t.num then (ctl.get t).swapped else ctl.get t := by
  simp [swapTables]

/-- What the end of TABLE_POISONED leaves of a side's tables. -/
theorem State.endPoisonIfHealed_ctl (s : State) (x : Side) :
    ((s.endPoisonIfHealed x).side x).tables.ctl = (s.side x).tables.ctl := by
  unfold State.endPoisonIfHealed; dsimp only; split <;> simp

/-- The control records after a swap (R162). -/
theorem State.swapSet_ctl (s : State) (x : Side) (c : PendingCommit) :
    ((s.swapSet x c).side x).tables.ctl = swapTables c.tables (s.side x).tables.ctl := by
  unfold State.swapSet
  rw [State.endPoisonIfHealed_ctl]
  dsimp only
  split <;> simp

/-- After a swap no commit is pending (R162). -/
theorem State.swapSet_commit (s : State) (x : Side) (c : PendingCommit) : ((s.swapSet x c).side x).tables.commit = none := by
  unfold State.swapSet
  rw [(State.endPoisonIfHealed_frame _ x).commit]
  dsimp only
  split <;> simp

/-- After the pending commit is carried out none is pending. -/
theorem State.swapPending_commit (s : State) (x : Side) : ((s.swapPending x).side x).tables.commit = none := by
  unfold State.swapPending
  split
  · exact State.swapSet_commit _ _ _
  · assumption

/-! ## Slots (R109 to R113) -/

@[simp] theorem Slot.freed_state (a : Slot) : a.freed.state = .free := rfl

@[simp] theorem Slot.freed_content (a : Slot) : a.freed.content = none := rfl

@[simp] theorem Slot.freed_damaged (a : Slot) : a.freed.damaged = a.damaged := rfl

/-- A slot found in a state is in that state. -/
theorem Slots.find_some {p : Slots} {st : SlotState} {n : SlotNo} (h : p.find st = some n) : (p.get n).state = st := by
  have := List.find?_some h
  simpa using this

theorem SlotNo.mem_all (n : SlotNo) : n ∈ SlotNo.all := by cases n <;> simp [SlotNo.all]

/-- A state in which no slot is found is the state of none. -/
theorem Slots.find_none {p : Slots} {st : SlotState} (h : p.find st = none) (n : SlotNo) : (p.get n).state ≠ st := by
  have := List.find?_eq_none.mp h n (SlotNo.mem_all n)
  simpa using this

theorem SideState.freeSlot_slot (d : SideState) (n m : SlotNo) (o : FrameOutcome) :
    (d.freeSlot n o).store.slots.get m = if m = n then (d.store.slots.get n).freed else d.store.slots.get m := by
  simp [SideState.freeSlot, Slots.get_set]

theorem SideState.setSlotState_slot (d : SideState) (n m : SlotNo) (st : SlotState) :
    (d.setSlotState n st).store.slots.get m =
      if m = n then { d.store.slots.get n with state := st } else d.store.slots.get m := by
  simp [SideState.setSlotState, Slots.get_set]

/-- Freeing a slot touches the slots and the history. -/
theorem SideState.freeSlot_frame (d : SideState) (n : SlotNo) (o : FrameOutcome) :
    { d.freeSlot n o with store := d.store, history := d.history } = d := rfl

@[simp] theorem writeOutcome_length (h : List FrameRecord) (k : Nat) (o : FrameOutcome) : (writeOutcome h k o).length = h.length := by
  simp [writeOutcome]

@[simp] theorem SideState.freeSlot_history_length (d : SideState) (n : SlotNo) (o : FrameOutcome) :
    (d.freeSlot n o).history.length = d.history.length := by
  unfold SideState.freeSlot; dsimp only; split <;> simp

/-- Resolving the slots of a side touches the slots and the history (R113, R115). -/
theorem SideState.resolveSlots_frame (d : SideState) (m : OutputMode) (now : Tick) (limit : Nat) :
    { (d.resolveSlots m now limit).2 with store := d.store, history := d.history } = d := by
  unfold SideState.resolveSlots
  split
  · rfl
  · split
    · rfl
    · split
      · rfl
      · split
        · rfl
        · dsimp only; split <;> rfl

/-- Discarding the FILLING slot touches the slots and the history (R112). -/
theorem SideState.discardSlot_frame (d : SideState) : { d.discardSlot with store := d.store, history := d.history } = d := by
  unfold SideState.discardSlot; split <;> rfl

/-- Making the FILLING slot READY touches the slots and the history (R111). -/
theorem SideState.readySlot_frame (d : SideState) : { d.readySlot with store := d.store, history := d.history } = d := by
  unfold SideState.readySlot
  split
  · rfl
  · dsimp only; split <;> rfl

/-! ## Malformed frame (R5, R10) -/

theorem SideState.discardFrame_port (d : SideState) : d.discardFrame.port = d.port := by
  have h := congrArg SideState.port (SideState.discardSlot_frame d)
  exact h

/-- What a malformed frame makes of the port (R5, R10). -/
theorem State.malformed_port (s : State) (x : Side) (index : Nat) (started : Bool) :
    ((s.malformed x index started).side x).port = { (s.side x).port with
      phase := .closed, statusLines := [], badCount := satSucc (s.side x).port.badCount 255, goodCount := 0,
      malformIndex := some index,
      frameCond := decide (3 ≤ satSucc (s.side x).port.badCount 255) || (s.side x).port.frameCond } := by
  cases started <;> simp only [State.malformed, Bool.false_eq_true, if_false, if_true] <;> split <;>
    simp_all [SideState.discardFrame_port]

/-! ## View (R137 to R140, R143) -/

/-- What the counting of an output frame leaves of the composer (R137). -/
theorem Composer.count_frame (c : Composer) (fresh : Bool) :
    { c.count fresh with repeatCount := c.repeatCount, startCount := c.startCount } = c := by
  unfold Composer.count; split <;> rfl

/-- What a transition leaves of the composer (R138 to R140). -/
theorem Composer.move_frame (c : Composer) (l : Layout) (fresh : Bool) :
    { (c.move l fresh).2 with view := c.view, startCount := c.startCount, recovery := c.recovery } = c := by
  cases hv : c.view <;> cases fresh <;> simp only [Composer.move, hv] <;> (repeat' split) <;> cases c <;> simp_all

/-- The records that the view state machine reports on. -/
def viewRecords (x : Side) : List RecordId := [.side .viewStale x, .side .viewLost x]

/-- A report of the view state machine (R143). -/
theorem State.reportView_side (x : Side) (s : State) (r : ViewReport) :
    { ((State.reportView x s r).side x) with comp := (s.side x).comp } = s.side x ∧
    { ((State.reportView x s r).side x).comp with
        staleCond := (s.side x).comp.staleCond, lostCond := (s.side x).comp.lostCond } = (s.side x).comp := by
  cases r <;> simp [State.reportView]

/-! ## Links (R184, R187, R188) -/

/-- A notice queued on one link touches no other link and no other field of its own. -/
theorem State.queueOn_link (s : State) (l m : Side) (i : RecordId) :
    (s.queueOn l i).link m = if m = l ∧ admits (s.link l).mask i = true then (s.link l).enqueue i else s.link m := by
  unfold State.queueOn
  split
  · rename_i h
    rw [State.link_onLink]
    by_cases e : m = l <;> simp [e, h]
  · rename_i h
    rw [if_neg (fun k => h k.2)]

/-- What a run of notices on one link can do to it: the notices already queued keep their places, and each record that the mask admits
is queued. -/
theorem State.queueAll_link (s : State) (l : Side) (is : List RecordId) :
    let t := is.foldl (fun s i => s.queueOn l i) s
    t.faults = s.faults ∧ t.sides = s.sides ∧ (∀ m, m ≠ l → t.link m = s.link m) ∧
    { t.link l with notices := (s.link l).notices } = s.link l ∧
    ((s.link l).notices.Nodup → (t.link l).notices.Nodup) ∧
    ∀ j, j ∈ (t.link l).notices ↔ j ∈ (s.link l).notices ∨ (j ∈ is ∧ admits (s.link l).mask j = true) := by
  induction is generalizing s with
  | nil => exact ⟨rfl, rfl, fun _ _ => rfl, rfl, fun h => h, by simp⟩
  | cons i is ih =>
    obtain ⟨h1, h2, h3, h4, h5, h6⟩ := ih (s.queueOn l i)
    have hl := State.queueOn_link s l l i
    have hmask : ((s.queueOn l i).link l).mask = (s.link l).mask := by rw [hl]; split <;> simp
    have heq : { (s.queueOn l i).link l with notices := (s.link l).notices } = s.link l := by
      rw [hl]; split <;> simp
    refine ⟨by simpa using h1, by simpa using h2, fun m hm => ?_, ?_, fun hn => h5 ?_, fun j => ?_⟩
    · rw [List.foldl_cons, h3 m hm, State.queueOn_link, if_neg (fun k => hm k.1)]
    · rw [List.foldl_cons, ← heq, ← h4]
    · rw [hl]; split
      · exact Link.enqueue_nodup i hn
      · exact hn
    · rw [List.foldl_cons, h6, hmask, hl]
      by_cases ha : admits (s.link l).mask i = true
      · rw [if_pos ⟨rfl, ha⟩, Link.mem_enqueue, List.mem_cons]
        constructor
        · rintro ((rfl | h) | h)
          · exact .inr ⟨.inl rfl, ha⟩
          · exact .inl h
          · exact .inr ⟨.inr h.1, h.2⟩
        · rintro (h | ⟨rfl | h, hj⟩)
          · exact .inl (.inr h)
          · exact .inl (.inl rfl)
          · exact .inr ⟨h, hj⟩
      · rw [if_neg (fun k => ha k.2), List.mem_cons]
        constructor
        · rintro (h | h)
          · exact .inl h
          · exact .inr ⟨.inr h.1, h.2⟩
        · rintro (h | ⟨rfl | h, hj⟩)
          · exact .inl h
          · exact absurd hj ha
          · exact .inr ⟨h, hj⟩

/-- What the arbiter leaves of a link (R186). -/
theorem Link.arbitrate_frame (k : Link) (f : FaultTable) :
    { (k.arbitrate f).2 with notices := k.notices, replies := k.replies, overrun := k.overrun } = k := by
  unfold Link.arbitrate; split <;> rfl

/-- The reply that is sent leaves the queue, and no other does (R194). -/
theorem dropReady_eq (es : List ReplyEntry) (r : Reply) (h : es.findSome? ReplyEntry.reply? = some r) :
    dropReady es = es.erase (.ready r) := by
  induction es with
  | nil => simp at h
  | cons e es ih =>
    cases e with
    | ready q =>
      simp only [List.findSome?_cons, ReplyEntry.reply?, Option.some.injEq] at h
      subst h
      simp [dropReady]
    | reserved tag x =>
      simp only [List.findSome?_cons, ReplyEntry.reply?] at h
      rw [dropReady, ih h, List.erase_cons_tail (by simp)]

/-! ## Line periods (R118, R120) -/

/-- The reads of a line period change no word of the frame store. -/
theorem State.serveReads_mem (n : Nat) (q : Sided LineReads) (s : State) :
    (State.serveReads n q s).2.frameStore.mem = s.frameStore.mem := by
  induction n generalizing q s with
  | zero => rfl
  | succ n ih =>
    unfold State.serveReads
    split
    · rfl
    · dsimp only
      split
      · rfl
      · rw [ih]; exact (State.readFrameWord_reads _ _ _ _).mem

/-! ## The order of events that fall together -/

theorem insertByKey_perm (e : Nat × Instr) (l : List (Nat × Instr)) : (insertByKey e l).Perm (e :: l) := by
  induction l with
  | nil => exact List.Perm.refl _
  | cons f fs ih =>
    simp only [insertByKey]
    split
    · exact List.Perm.refl _
    · exact (List.Perm.cons f ih).trans (List.Perm.swap e f fs)

/-- The free order is an order of the events: none is lost and none is added. -/
theorem orderFree_perm (n : Nat) (es : List Instr) : (orderFree n es).Perm es := by
  have h : ∀ l : List (Nat × Instr), (l.foldr insertByKey []).Perm l := by
    intro l
    induction l with
    | nil => exact List.Perm.refl _
    | cons a l ih => exact (insertByKey_perm a _).trans (List.Perm.cons a ih)
  have := (h (es.zipIdx.map (fun e => (Config.tieKey (n + e.2), e.1)))).map Prod.snd
  simpa [orderFree, List.map_map, Function.comp_def, List.zipIdx_map_fst] using this

end Sys2Proof.Machine
end

