-- ==== Sys2Proof/Laws/Exec.lean ====
section
/-! SUPPORT. Each command as the step that it takes when the part takes events: the meaning behind every arm of exec
(R209). -/

namespace Sys2Proof.Machine

theorem exec_frameBeginMarker (x : Side) (s : State) :
    exec (.frameBeginMarker x) s =
      s.take (fun s => s.frameBegin x) := rfl

theorem exec_line (x : Side) (ws : List Sample) (s : State) :
    exec (.line x ws) s =
      s.take (fun s => s.receiveLine x ws) := rfl

theorem exec_frameEndMarker (x : Side) (s : State) :
    exec (.frameEndMarker x) s =
      s.take (fun s => s.frameEnd x) := rfl

theorem exec_lossExpiry (x : Side) (s : State) :
    exec (.lossExpiry x) s =
      s.take (fun s => if s.lossDue x then s.lossExpiry x else s) := rfl

theorem exec_sensorBusResponse (x : Side) (r : BusResponse) (s : State) :
    exec (.sensorBusResponse x r) s =
      s.take (fun s => s.busResponse x r.transaction r.ack) := rfl

theorem exec_responseTimerExpiry (x : Side) (s : State) :
    exec (.responseTimerExpiry x) s =
      s.take (fun s => if s.responseDue x then s.attemptFailed x else s) := rfl

theorem exec_articulationTimerExpiry (s : State) :
    exec .articulationTimerExpiry s =
      s.take State.articulationExpiry := rfl

theorem exec_outputFrameStart (x : Side) (s : State) :
    exec (.outputFrameStart x) s =
      s.take (fun s => s.startOutputFrame x) := rfl

theorem exec_linePeriodStart (period : Fin 1300) (s : State) :
    exec (.linePeriodStart period) s =
      s.take (fun s => s.linePeriod period) := rfl

theorem exec_trainingRequest (l : Side) (s : State) :
    exec (.trainingRequest l) s =
      s.take (fun s => s.trainingRequest l) := rfl

theorem exec_ready (l : Side) (s : State) :
    exec (.ready l) s =
      s.take (fun s => s.linkReady l) := rfl

theorem exec_lossOfLock (l : Side) (s : State) :
    exec (.lossOfLock l) s =
      s.take (fun s => s.lossOfLock l) := rfl

theorem exec_statusWord (l : Side) (echo : BitVec 32) (panel : Word) (s : State) :
    exec (.statusWord l echo panel) s =
      s.take (fun s => s.statusWord l echo panel) := rfl

theorem exec_packetDropped (link : Side) (words : List Word) (s : State) :
    exec (.packetDropped link words) s =
      s.take (fun s => s) := rfl

theorem exec_unknownDirective (l : Side) (code : BitVec 8) (p : Packet) (s : State) :
    exec (.unknownDirective l code p) s =
      s.take (fun s => s.admission l p.tag (fun s => (.refused .unknownDirective [], s))) := rfl

theorem exec_frameHistory (l : Side) (p : Packet) (s : State) :
    exec (.frameHistory l p) s =
      s.take (fun s => s.readSide l p 0 (fun x s =>
        if 7 < p.s1.toNat then (.refused .badArgument [], s)
        else (.done (historyWords (s.side x).history p.s1.toNat), s))) := rfl

theorem exec_faultRecord (l : Side) (p : Packet) (s : State) :
    exec (.faultRecord l p) s =
      s.take (fun s => s.readItem l p 1 (fun s =>
        match RecordId.all[p.s1.toNat]? with
        | some i => (.done (s.faultWords i), s)
        | none => (.refused .badArgument [], s))) := rfl

theorem exec_errorLog (l : Side) (p : Packet) (s : State) :
    exec (.errorLog l p) s =
      s.take (fun s => s.readItem l p 2 (fun s =>
        if p.s1 = 1 then (.done (errorLogWords s.frameStore.log s.frameStore.injection s.corrCond), s)
        else if p.s1 = 2 then (.done (errorLogWords s.tableStore.log s.tableStore.injection s.corrCond), s)
        else (.refused .badArgument [], s))) := rfl

theorem exec_exposureState (l : Side) (p : Packet) (s : State) :
    exec (.exposureState l p) s =
      s.take (fun s => s.readSide l p 3 (fun x s => (.done (exposureWords (s.side x).exposure), s))) := rfl

theorem exec_glareLevels (l : Side) (p : Packet) (s : State) :
    exec (.glareLevels l p) s =
      s.take (fun s => s.readSide l p 4 (fun x s =>
        if 15 < p.s1.toNat then (.refused .badArgument [], s)
        else (.done (glareWords (s.side x).glare p.s1.toNat), s))) := rfl

theorem exec_windowState (l : Side) (p : Packet) (s : State) :
    exec (.windowState l p) s =
      s.take (fun s => s.readSide l p 5 (fun x s => (.done (windowStateWords (s.side x).framing s.artic), s))) := rfl

theorem exec_slotState (l : Side) (p : Packet) (s : State) :
    exec (.slotState l p) s =
      s.take (fun s => s.readSide l p 6 (fun x s => (.done (slotStateWords (s.side x).store), s))) := rfl

theorem exec_tableState (l : Side) (p : Packet) (s : State) :
    exec (.tableState l p) s =
      s.take (fun s => s.readSide l p 7 (fun x s => (.done (s.tableStateWords x), s))) := rfl

theorem exec_defectEntry (l : Side) (p : Packet) (s : State) :
    exec (.defectEntry l p) s =
      s.take (fun s => s.readSide l p 8 (fun x s => s.readDefectEntry x p.s1.toNat)) := rfl

theorem exec_partState (l : Side) (p : Packet) (s : State) :
    exec (.partState l p) s =
      s.take (fun s => s.readItem l p 9 (fun s => (.done s.partStateWords, s))) := rfl

theorem exec_loadTable (l : Side) (p : Packet) (s : State) :
    exec (.loadTable l p) s =
      s.take (fun s => s.directive l p (fun s =>
        match sideField p.side, tableField (field p.s0 0 4) (field p.s0 8 2) with
        | some x, some t => State.loadDirective x t (field p.s1 0 8) (field p.s1 8 8) p.args s
        | _, _ => (.refused .badArgument [], s))) := rfl

theorem exec_commit (l : Side) (p : Packet) (s : State) :
    exec (.commit l p) s =
      s.take (fun s => s.plainDirective l p (fun s =>
        match sideField p.side with
        | some x =>
          if p.s0 = 0 ∨ 8192 ≤ p.s0.toNat then (.refused .badArgument [], s)
          else State.commitDirective l x (p.s0.setWidth 13) s
        | none => (.refused .badArgument [], s))) := rfl

theorem exec_setProfileModeForce (l : Side) (p : Packet) (s : State) :
    exec (.setProfileModeForce l p) s =
      s.take (fun s => s.sidesDirective l p (fun xs s =>
        if p.s0 = 1 then
          if h : p.s1.toNat < 4 then State.forceSides ⟨p.s1.toNat, h⟩ xs s else (.refused .badArgument [], s)
        else (.refused .badArgument [], s))) := rfl

theorem exec_setProfileModeAuto (l : Side) (p : Packet) (s : State) :
    exec (.setProfileModeAuto l p) s =
      s.take (fun s => s.sidesDirective l p (fun xs s =>
        if p.s0 = 0 then State.autoSides xs s else (.refused .badArgument [], s))) := rfl

theorem exec_articulation (l : Side) (p : Packet) (s : State) :
    exec (.articulation l p) s =
      s.take (fun s => s.plainDirective l p (State.articulate p.s0.toInt)) := rfl

theorem exec_aim (l : Side) (p : Packet) (s : State) :
    exec (.aim l p) s =
      s.take (fun s => s.sidesDirective l p (State.aimSides p.s0.toInt p.s1.toInt)) := rfl

theorem exec_trim (l : Side) (p : Packet) (s : State) :
    exec (.trim l p) s =
      s.take (fun s => s.sidesDirective l p (State.trimSides p.s0.toInt)) := rfl

theorem exec_outputMode (l : Side) (p : Packet) (s : State) :
    exec (.outputMode l p) s =
      s.take (fun s => s.sidesDirective l p (fun xs s =>
        match modeField p.s0 with
        | some m => State.modeSides m xs s
        | none => (.refused .badArgument [], s))) := rfl

theorem exec_defectAdd (l : Side) (p : Packet) (s : State) :
    exec (.defectAdd l p) s =
      s.take (fun s => s.directive l p (State.editDirective .add p)) := rfl

theorem exec_defectRemove (l : Side) (p : Packet) (s : State) :
    exec (.defectRemove l p) s =
      s.take (fun s => s.directive l p (State.editDirective .remove p)) := rfl

theorem exec_defectSplit (l : Side) (p : Packet) (s : State) :
    exec (.defectSplit l p) s =
      s.take (fun s => s.plainDirective l p (State.splitDirective p.s0.toNat)) := rfl

theorem exec_ackFault (l : Side) (p : Packet) (s : State) :
    exec (.ackFault l p) s =
      s.take (fun s => s.plainDirective l p (fun s =>
        match faultField p.s0 p.side with
        | some i => State.acknowledge i s
        | none => (.refused .badArgument [], s))) := rfl

theorem exec_noticeMask (l : Side) (p : Packet) (s : State) :
    exec (.noticeMask l p) s =
      s.take (fun s => s.plainDirective l p (fun s =>
        match sidesField p.side with
        | some ls => if 8192 ≤ p.s0.toNat then (.refused .badArgument [], s) else State.maskLinks (p.s0.setWidth 13) ls s
        | none => (.refused .badArgument [], s))) := rfl

theorem exec_clearErrorLog (l : Side) (p : Packet) (s : State) :
    exec (.clearErrorLog l p) s =
      s.take (fun s => s.plainDirective l p (fun s =>
        if p.s0 = 1 then (.done [], s.clearLogs true false)
        else if p.s0 = 2 then (.done [], s.clearLogs false true)
        else if p.s0 = 3 then (.done [], s.clearLogs true true)
        else (.refused .badArgument [], s))) := rfl

theorem exec_injectErrorFrameStore (l : Side) (p : Packet) (s : State) :
    exec (.injectErrorFrameStore l p) s =
      s.take (fun s => s.directive l p (State.injectDirective 1 frameStoreSize State.armFrame p)) := rfl

theorem exec_injectErrorTableStore (l : Side) (p : Packet) (s : State) :
    exec (.injectErrorTableStore l p) s =
      s.take (fun s => s.directive l p (State.injectDirective 2 tableStoreSize State.armTable p)) := rfl

theorem exec_lock (l : Side) (p : Packet) (s : State) :
    exec (.lock l p) s =
      s.take (fun s => s.plainDirective l p (fun s =>
        match lockField p.s0 with
        | some c => State.lockDirective c s
        | none => (.refused .badArgument [], s))) := rfl

theorem exec_sensorWrite (l : Side) (p : Packet) (s : State) :
    exec (.sensorWrite l p) s =
      s.take (fun s => s.sidesDirective l p (State.writeSides p.s0 p.s1)) := rfl

theorem exec_restartSide (l : Side) (p : Packet) (s : State) :
    exec (.restartSide l p) s =
      s.take (fun s => s.sidesDirective l p (fun xs s => (.done [], s.forSides xs State.restartSide))) := rfl

theorem exec_powerOnReset (s : State) :
    exec .powerOnReset s = .next s.powerOn := rfl

theorem exec_resetInputAsserted (s : State) :
    exec .resetInputAsserted s = .next s.resetAsserted := rfl

end Sys2Proof.Machine
end

