-- ==== Sys2Proof/Laws/Rom.lean ====
section
/-! SUPPORT. Laws of the ROM defaults: what the table store holds after reset, and that the defaults meet the rules of their kinds (R153
to R155, R160, R163). -/

namespace Sys2Proof.Machine

/-- A ROM default stands at its offset in its side's block. -/
theorem romBlock_table (x : Side) (tb : TableId) : ((romBlock x).drop tb.offset).take tb.words = romTable x tb := by
  cases x <;> cases tb <;> decide +kernel

theorem romTable_length (x : Side) (tb : TableId) : (romTable x tb).length = tb.words := by
  cases x <;> cases tb <;> decide +kernel

theorem romBlock_getD (x : Side) (tb : TableId) (j : Nat) (h : j < tb.words) :
    (romBlock x).getD (tb.offset + j) 0 = (romTable x tb).getD j 0 := by
  rw [← romBlock_table x tb]
  simp [List.getD, List.getElem?_drop, h]

theorem offset_fits (tb : TableId) : tb.offset + tb.words ≤ 512 := by cases tb <;> decide

theorem tableDefault_left (a : Nat) (h : a < 1024) : tableDefault a = encodeWord 22 ((romBlock .left).getD (a % 512) 0) := by
  rw [tableDefault, if_pos h]

theorem tableDefault_right (a : Nat) (h : 1024 ≤ a) (g : a < 2048) :
    tableDefault a = encodeWord 22 ((romBlock .right).getD (a % 512) 0) := by
  rw [tableDefault, if_neg (by omega), if_pos g]

/-- After reset every bank of a table holds its ROM default (R154, R155). -/
theorem tableDefault_bank (x : Side) (tb : TableId) (p : PhysBank) (j : Nat) (h : j < tb.words) :
    tableDefault (tableAddr x tb p j) = encodeWord 22 ((romTable x tb).getD j 0) := by
  have hf := offset_fits tb
  have hm : tableAddr x tb p j % 512 = tb.offset + j := by unfold tableAddr; omega
  rw [← romBlock_getD x tb j h, ← hm]
  cases x
  · refine tableDefault_left _ ?_
    cases p <;> simp only [tableAddr, Side.code, PhysBank.num] <;> omega
  · refine tableDefault_right _ ?_ ?_ <;> cases p <;> simp only [tableAddr, Side.code, PhysBank.num] <;> omega

/-- The words of the ROM defaults, each kind once. -/
def romWords : List Word :=
  romTone ++ romProfile 0 ++ romProfile 1 ++ romProfile 2 ++ romProfile 3 ++ romLadder ++ romGlareAtt ++ romPan ++ romLayout .left ++
    romLayout .right ++ romSensor

theorem mem_romWords (x : Side) (tb : TableId) (v : Word) (h : v ∈ romTable x tb) : v ∈ romWords := by
  cases tb <;> cases x <;> simp only [romTable] at h <;> simp only [romWords, List.mem_append, h, true_or, or_true]

/-- Every ROM word is stored so that it reads clean and gives its data back. -/
theorem romTable_stored (x : Side) (tb : TableId) (v : Word) (h : v ∈ romTable x tb) :
    checkWord 5 (encodeWord 22 v) = .clean ∧ dataOf 16 (encodeWord 22 v) = v := by
  have hall : romWords.all (fun v =>
      decide (checkWord 5 (encodeWord 22 v) = .clean) && decide (dataOf 16 (encodeWord 22 v) = v)) = true := by decide +kernel
  simpa using List.all_eq_true.mp hall v (mem_romWords x tb v h)

theorem tableDefault_clean (a : Nat) : checkWord 5 (tableDefault a) = .clean := by
  have h0 : checkWord 5 (encodeWord 22 0#16) = .clean := by decide +kernel
  have hb : ∀ (x : Side) (i : Nat), checkWord 5 (encodeWord 22 ((romBlock x).getD i 0)) = .clean := by
    intro x i
    rw [List.getD_eq_getElem?_getD]
    cases h : (romBlock x)[i]? with
    | none => exact h0
    | some v =>
      obtain ⟨ws, hw, hv⟩ := List.mem_flatten.mp (List.mem_of_getElem? h)
      obtain ⟨tb, -, rfl⟩ := List.mem_map.mp hw
      exact (romTable_stored x tb v hv).1
  unfold tableDefault
  split
  · exact hb ..
  split
  · exact hb ..
  · decide +kernel

/-- The ROM defaults meet every rule of their kinds (R160, R163). -/
theorem romTable_passes (x : Side) (tb : TableId) : tb.Passes (romTable x tb) := by
  cases tb
  case layout =>
    simp only [TableId.Passes, TableId.kind, TableKind.rules, List.forall_mem_map, List.forall_mem_cons, List.forall_mem_append,
      List.mem_range, List.not_mem_nil, IsEmpty.forall_iff, implies_true, and_true]
    cases x <;> and_intros <;> decide +kernel
  all_goals
    simp only [TableId.Passes, TableId.kind, TableKind.rules, List.forall_mem_map, List.forall_mem_cons,
      List.mem_range, List.not_mem_nil, IsEmpty.forall_iff, implies_true, and_true]
    cases x <;> decide +kernel

/-- After reset the words of every bank of a table are its ROM default. -/
theorem tableDefault_words (x : Side) (tb : TableId) (p : PhysBank) :
    (List.range tb.words).map (fun j => dataOf 16 (tableDefault (tableAddr x tb p j))) = romTable x tb := by
  refine List.ext_getElem (by simp [romTable_length]) fun j h g => ?_
  have hj : j < tb.words := by simpa using h
  simp only [List.getElem_map, List.getElem_range, tableDefault_bank x tb p j hj]
  rw [List.getD_eq_getElem _ _ g]
  exact (romTable_stored x tb _ (List.getElem_mem g)).2

theorem tableAddr_lt (x : Side) (tb : TableId) (p : PhysBank) (j : Nat) (h : j < tb.words) : tableAddr x tb p j < 2048 := by
  have := offset_fits tb
  cases x <;> cases p <;> simp only [tableAddr, Side.code, PhysBank.num] <;> omega

theorem romTable_getD_mem (x : Side) (tb : TableId) (j : Nat) (h : j < tb.words) : (romTable x tb).getD j 0 ∈ romTable x tb := by
  rw [List.getD_eq_getElem _ _ (by rw [romTable_length]; exact h)]
  exact List.getElem_mem _

/-- The words of a bank that stands as after reset are read without error. -/
theorem State.dataAt_rom (s : State) (x : Side) (tb : TableId) (p : PhysBank) (j : Nat) (hi : s.tableStore.injection = none)
    (hm : ∀ a, a < 2048 → Mem.read tableDefault s.tableStore.mem a = tableDefault a) (h : j < tb.words) :
    s.dataAt (tableAddr x tb p j) = some ((romTable x tb).getD j 0) := by
  obtain ⟨hc, hd⟩ := romTable_stored x tb _ (romTable_getD_mem x tb j h)
  simp only [State.dataAt, State.bitsAt, hi, hm _ (tableAddr_lt x tb p j h), tableDefault_bank x tb p j h, delivered, hc, hd]

/-- No bank that stands as after reset fails a read run. -/
theorem State.not_bankFails_rom (s : State) (x : Side) (tb : TableId) (p : PhysBank) (j : Nat) (hi : s.tableStore.injection = none)
    (hm : ∀ a, a < 2048 → Mem.read tableDefault s.tableStore.mem a = tableDefault a) : ¬ s.BankFails x tb p j := by
  rintro ⟨-, h, he, -⟩
  rw [s.dataAt_rom x tb p j hi hm h] at he
  cases he

/-- The tables are lawful while the banks stand as after reset, no working copy has been taken, and the pool is stored without error. -/
theorem State.tablesLawful_rom (s : State) (hm : ∀ a, a < 2048 → Mem.read tableDefault s.tableStore.mem a = tableDefault a)
    (hp : ∀ a, 2048 ≤ a → a < 10240 → checkWord 5 (Mem.read tableDefault s.tableStore.mem a) = .clean)
    (hc : ∀ x, (s.side x).dev.copies = none) : s.TablesLawful := by
  have hb : ∀ x tb p, s.bankWords x tb p = romTable x tb := by
    intro x tb p
    rw [← tableDefault_words x tb p]
    refine List.map_congr_left fun j h => ?_
    rw [hm _ (tableAddr_lt x tb p j (List.mem_range.mp h))]
  refine ⟨fun a ha => ?_, fun x tb c _ => ⟨?_, ?_, fun _ _ _ => ?_⟩⟩
  · by_cases h : a < 2048
    · rw [hm a h]; exact tableDefault_clean a
    · exact hp a (by omega) ha
  · have : (s.copies x).get tb = romTable x tb := by
      simp only [State.copies, hc x, Option.getD_none]
      cases tb <;> rfl
    rw [this]; exact romTable_passes x tb
  · rw [hb]; exact romTable_passes x tb
  · rw [hb]; exact romTable_passes x tb

end Sys2Proof.Machine
end

