-- ==== Sys2Proof/Tests/Slice0.lean ====
section
/-! SUPPORT. The model's own tests. Expected values come from the spec: its worked examples, its ROM tables and its layouts. -/

namespace Sys2Proof.Tests

open Sys2Proof Sys2Proof.Machine

set_option Elab.async false

/-! ## Commands that do not name themselves (WellFormed): each check refuses an ill-formed term -/

/-- A packet without argument words. -/
def pkt (side : BitVec 2) (s0 s1 : Word) : Packet := { tag := 7, side := side, length := 0, s0 := s0, s1 := s1, args := [] }

/-- A packet that carries argument words and counts them rightly. -/
def pktArgs (side : BitVec 2) (s0 s1 : Word) (args : List Word) : Packet :=
  { tag := 7, side := side, length := BitVec.ofNat 8 args.length, s0 := s0, s1 := s1, args := args }

theorem smoke_unknownDirective : (Instr.unknownDirective .left 18 (pkt 0 0 0)).wellFormed = false := by decide
theorem smoke_packetDropped : (Instr.packetDropped .left [0x0A01, 0, 0, 0, 0xF5FF]).wellFormed = false := by decide
theorem smoke_frameHistory : (Instr.frameHistory .left (pkt 0 9 0)).wellFormed = false := by decide
theorem smoke_faultRecord : (Instr.faultRecord .left (pkt 0 0 0)).wellFormed = false := by decide
theorem smoke_errorLog : (Instr.errorLog .left (pkt 0 3 0)).wellFormed = false := by decide
theorem smoke_exposureState : (Instr.exposureState .left (pkt 0 4 0)).wellFormed = false := by decide
theorem smoke_glareLevels : (Instr.glareLevels .left (pkt 0 5 0)).wellFormed = false := by decide
theorem smoke_windowState : (Instr.windowState .left (pkt 0 6 0)).wellFormed = false := by decide
theorem smoke_slotState : (Instr.slotState .left (pkt 0 7 0)).wellFormed = false := by decide
theorem smoke_tableState : (Instr.tableState .left (pkt 0 8 0)).wellFormed = false := by decide
theorem smoke_defectEntry : (Instr.defectEntry .left (pkt 0 9 0)).wellFormed = false := by decide
theorem smoke_partState : (Instr.partState .left (pkt 0 10 0)).wellFormed = false := by decide
theorem smoke_setProfileModeForce : (Instr.setProfileModeForce .left (pkt 0 0 0)).wellFormed = false := by decide
theorem smoke_setProfileModeAuto : (Instr.setProfileModeAuto .left (pkt 0 1 0)).wellFormed = false := by decide
theorem smoke_injectErrorFrameStore : (Instr.injectErrorFrameStore .left (pkt 0 0x0112 0)).wellFormed = false := by decide
theorem smoke_injectErrorTableStore : (Instr.injectErrorTableStore .left (pkt 0 0x0111 0)).wellFormed = false := by decide

/-! ## Packets word by word (R211): each word written out from the layout, the check word making the sum 0 -/

/-- A status word: kind 0x0A01, echo count 0x00012345 low word first, panel status 0; 0x0A01 + 0x2345 + 0x0001 = 0x2D47. -/
theorem test_receive_statusWord :
    receive .left [0x0A01, 0x2345, 0x0001, 0x0000, 0xD2B9] = some (.statusWord .left 0x00012345 0) := by decide

/-- TRIM (code 7) with tag 0x31 for BOTH (2), value -20: H1 0x0731, H2 0x0002, S0 0xFFEC, S1 0; the sum of these and the kind word
0x0A02 is 0x1121. -/
theorem test_receive_trim :
    receive .right [0x0A02, 0x0731, 0x0002, 0xFFEC, 0x0000, 0xEEDF] =
      some (.trim .right { tag := 0x31, side := 2, length := 0, s0 := 0xFFEC, s1 := 0, args := [] }) := by decide

/-- READ_ITEM (code 1) FAULT_RECORD (item 1) of index 23: the sum without the check word is 0x0A02 + 0x0105 + 0x0001 + 0x0017. -/
theorem test_receive_faultRecord :
    receive .left [0x0A02, 0x0105, 0x0000, 0x0001, 0x0017, 0xF4E1] =
      some (.faultRecord .left { tag := 5, side := 0, length := 0, s0 := 1, s1 := 23, args := [] }) := by decide

/-- DEFECT_ADD (code 9) for RIGHT (1) with 2 argument words: site (640, 812) of class HOT (2), 812 = 0x032C, class in bits 14..15. -/
theorem test_receive_defectAdd :
    receive .left [0x0A02, 0x0903, 0x0201, 0x0001, 0x0000, 0x0280, 0x832C, 0x654D] =
      some (.defectAdd .left { tag := 3, side := 1, length := 2, s0 := 1, s1 := 0, args := [0x0280, 0x832C] }) := by decide

/-- The words of the DEFECT_ADD are sent as they are received. -/
theorem test_send_defectAdd :
    directiveWords 9 { tag := 3, side := 1, length := 2, s0 := 1, s1 := 0, args := [0x0280, 0x832C] } =
      [0x0A02, 0x0903, 0x0201, 0x0001, 0x0000, 0x0280, 0x832C, 0x654D] := by decide

/-- A wrong check word drops the packet (R195). -/
theorem test_receive_dropped :
    receive .left [0x0A01, 0x2345, 0x0001, 0x0000, 0xD2B8] = some (.packetDropped .left [0x0A01, 0x2345, 0x0001, 0x0000, 0xD2B8]) := by
  decide

/-- A code without a directive (R198). -/
theorem test_receive_unknown :
    receive .left [0x0A02, 0x1301, 0, 0, 0, 0xE2FD] =
      some (.unknownDirective .left 0x13 { tag := 1, side := 0, length := 0, s0 := 0, s1 := 0, args := [] }) := by decide

/-- No row of the table gives bits. -/
theorem test_decodeTableWord : decodeTableWord 16 0x0A02 = none := rfl

/-! ## Tables of chapter 2 -/

/-- mt[f] = round(32768 × 2^(f/256)) for every f (R23), by 256th powers of the rounding bounds. -/
theorem test_mantissa_rounds : ∀ f < 256,
    (2 * mt f - 1) ^ 256 ≤ 65536 ^ 256 * 2 ^ f ∧ 65536 ^ 256 * 2 ^ f < (2 * mt f + 1) ^ 256 := by decide +kernel

/-- lg[i] = round(256 × log2(1 + i/64)) for every i (R24), by 512th powers of the rounding bounds. -/
theorem test_log_rounds : ∀ i < 64,
    2 ^ (2 * lg i) * 64 ^ 512 ≤ 2 * (64 + i) ^ 512 ∧ (64 + i) ^ 512 < 2 ^ (2 * lg i + 1) * 64 ^ 512 := by decide +kernel

/-! ## Worked examples on pure functions -/

/-- One auto-exposure step (chapter 2): E_max 3259, E_req 2900 from M = 600 and E_F = 2802. -/
theorem test_requested_exposure :
    (limitsOf (readProfile (romProfile 0)) (readSensor romSensor)).eMax = 3259 ∧
      requestedExposure (readProfile (romProfile 0)) (limitsOf (readProfile (romProfile 0)) (readSensor romSensor)) 0 600 2802 =
        2900 := by decide +kernel

/-- The split of 2900 and of 2960 (chapter 2, records B and C). -/
theorem test_split :
    splitExposure (limitsOf (readProfile (romProfile 0)) (readSensor romSensor)) 2900 =
        { total := 2900, integ := 1200, analog := 256, digital := 25 } ∧
      splitExposure (limitsOf (readProfile (romProfile 0)) (readSensor romSensor)) 2960 =
        { total := 2960, integ := 1200, analog := 320, digital := 21 } := by decide +kernel

/-- The late acknowledgement (chapter 2): 505:D replaces 505:C. -/
theorem test_join_replaces :
    joinPending [{ target := 505, record := { total := 2960, integ := 1200, analog := 320, digital := 21 } }]
        { target := 505, record := { total := 3000, integ := 1200, analog := 352, digital := 29 } } =
      [{ target := 505, record := { total := 3000, integ := 1200, analog := 352, digital := 29 } }] := by decide

/-- One green value (chapter 3): gain 64 takes 1000 to 1189, the curve to 574, the output to 144. -/
theorem test_green_value :
    totalGain 25 103 (-64) = 64 ∧ linearValue 1000 64 = 1189 ∧
      toneValue (List.replicate 18 0 ++ [560, 584]) 1189 = 574 ∧ outputValue 574 = 144 := by decide +kernel

/-- The main pane of the sampling example. -/
def mainPane : Pane :=
  { firstRow := 0, height := 800, window := { x := 40, y := 260, w := 900, h := 1000 }, hstep := 1280, vstep := 1280 }

/-- Sampling the panes (chapter 3): the steps, and the cell of the last pixel of each pane. -/
theorem test_sampling :
    hstepOf mainPane.window = 1280 ∧ vstepOf mainPane.window 800 = 1280 ∧ mainPane.sourceCol 719 = 938 ∧
      mainPane.sourceRow 799 = 1258 ∧
      Pane.sourceCol { mainPane with window := { x := 0, y := 320, w := 960, h := 960 }, hstep := 1365 } 719 = 958 ∧
      Pane.sourceRow { mainPane with window := { x := 0, y := 320, w := 960, h := 960 }, vstep := 2048 } 479 = 1278 := by
  decide +kernel

/-- A defect pair at the edge (chapter 3): (101, 1) takes the row two above, (101, 3) takes column 5. -/
theorem test_defect_replacement :
    replaceAt [1, 3] [10, 11, 12, 13, 14, 15] [20, 21, 22, 23, 24, 25] 1 = 21 ∧
      replaceAt [1, 3] [10, 11, 12, 13, 14, 15] [20, 21, 22, 23, 24, 25] 3 = 15 := by decide

/-- A defect of row 0 or 1 with a usable neighbour holds back nothing; without one cell row 0 waits for row 2 or row 3 (R63, R64). -/
theorem test_completedRows :
    completedRows [] 1 = [0] ∧ completedRows [(0, 5), (1, 0)] 1 = [0] ∧ completedRows [(0, 0), (0, 2)] 1 = [] ∧
      completedRows [(0, 0), (0, 2)] 2 = [0] ∧ completedRows [(1, 1919), (1, 1917)] 2 = [] ∧
      completedRows [(1, 1919), (1, 1917)] 3 = [0, 1] := by decide

/-- One lamp passing (chapter 4): levels 4, 8, 8, 8, 7 and hold counts 2, 2, 1, 0, 0. -/
theorem test_glare_levels :
    let z1 := GlareZone.update { level := 0, hold := 0 } true 4 1 2
    let z2 := z1.update true 4 1 2
    let z3 := z2.update false 4 1 2
    let z4 := z3.update false 4 1 2
    let z5 := z4.update false 4 1 2
    [z1, z2, z3, z4, z5].map (fun z => (z.level, z.hold)) = [(4, 2), (8, 2), (8, 1), (8, 0), (7, 0)] := by decide

/-- The GLARE_ATT default at levels 4, 8 and 7 (chapter 4): -160, -448, -352. -/
theorem test_attenuations :
    handedSet romGlareAtt [{ level := 4, hold := 0 }, { level := 8, hold := 0 }, { level := 7, hold := 0 }] = [-160, -448, -352] := by
  decide +kernel

/-- A turn (chapter 5): the RIGHT target of +300 is 120, and x_raw 244 is held at 240 with mark HIGH. -/
theorem test_turn :
    panTargetOf .right { angle := 300, tick := 0, stale := false } romPan = 120 ∧
      panTargetOf .left { angle := -50, tick := 0, stale := false } romPan = 20 ∧ panStep 112 120 16 = 120 ∧
      windowsOf (readLayout (romLayout .right)) 60 (-10) 48 =
        { main := { x := 228, y := 230, w := 720, h := 800 }, wide := { x := 0, y := 320, w := 960, h := 960 },
          markX := .unclamped, markY := .unclamped } ∧
      ((windowsOf (readLayout (romLayout .right)) 60 (-10) 64).main.x = 240 ∧
        (windowsOf (readLayout (romLayout .right)) 60 (-10) 64).markX = .high) := by decide +kernel

/-- Word addresses (chapter 6): RIGHT slot 1, row 10, word 5, and LEFT slot 0, row 500, word 101. -/
theorem test_frame_addresses : frameAddr .right .s1 10 5 = 1385105 ∧ frameAddr .left .s0 500 101 = 135101 := by decide

/-- The ROM defaults pass the checks of their kinds (R97, R160). -/
theorem test_rom_defaults_pass :
    ∀ t ∈ TableId.all, (contentChecks t.kind).all (fun c => c.passes (romTable .left t) && c.passes (romTable .right t)) = true := by
  decide +kernel

/-- Each ROM default has the number of words of its kind (R153). -/
theorem test_rom_lengths : ∀ t ∈ TableId.all, (romTable .left t).length = t.words ∧ (romTable .right t).length = t.words := by
  decide +kernel

/-- The output frames of a cycle last 1667, 1666 and 1667 ticks (R130). -/
theorem test_cycle : [frameTicks 0, frameTicks 1, frameTicks 2] = [1667, 1666, 1667] := by decide

/-! ## One step of each command, on small states -/

/-- The state that a command leaves; the state itself should the command stop. -/
def after (s : State) (i : Instr) : State :=
  match exec i s with
  | .next t => t
  | .fault _ => s
  | .refused _ => s

/-- A link that has come UP. -/
def upLink : Link := { Link.reset with state := .up, beenUp := true }

/-- The part with both links UP at tick 1000. -/
def up : State := { State.reset with tick := 1000, links := { left := upLink, right := upLink } }

/-- The last entry of a link's reply queue. -/
def lastReply (s : State) (l : Side) : Option ReplyEntry := (s.link l).replies.getLast?

/-- The reply DONE with the tag of `pkt`. -/
def done (data : List Word) : Option ReplyEntry := some (.ready { tag := 7, reason := none, data := data })

/-- The reply REFUSED with the tag of `pkt`. -/
def refused (q : Reason) (data : List Word) : Option ReplyEntry := some (.ready { tag := 7, reason := some q, data := data })

/-- A port with a frame in LINES after `n` active lines. -/
def inLines (n : Nat) : State :=
  up.onSide .left (fun d => { d with port := { d.port with state := .running, phase := .lines, lineCount := n, fcur := some 4118,
                                                           lastStart := 881700 } })

/-- A port that has received status line 0 with frame number 0x1234, and whose active banks are all poisoned, so that a frame start
takes the ROM defaults without a read (R164). -/
def inStatus : State :=
  up.onSide .left (fun d =>
    { d with
      port := { d.port with phase := .status, lineCount := 1, statusLines := [[0x234, 0x001, 0x4B0, 0x005, 0x069, 0x000]] },
      tables := { d.tables with ctl := PerTable.ofFn (fun _ => { TableCtl.reset with bad0 := some 0 }), poisonCond := true } })

theorem test_frameBegin_in_status :
    ((after inStatus (.frameBeginMarker .left)).side .left).port.malformIndex = some 1 ∧
      ((after inStatus (.frameBeginMarker .left)).side .left).port.phase = .status := by decide +kernel

/-- The frame number is words 0 and 1, the temperature 105 °C sets SENSOR_HOT (R6, R13, R212). -/
theorem test_line_frameStart :
    ((after inStatus (.line .left (List.replicate 1920 0))).side .left).port.fcur = some 0x1234 ∧
      (after inStatus (.line .left (List.replicate 1920 0))).faults.get (.side .sensorHot .left) =
        { state := .active, count := 1, firstActive := some 1000, lastChange := some 1000, detail := 105 } := by decide +kernel

/-- A frame start seeds the record in force from integration 1200 and gain code 5 (R31): E = 2619 + 160. -/
theorem test_line_seeds :
    ((after inStatus (.line .left (List.replicate 1920 0))).side .left).exposure.inForce =
      some { total := 2779, integ := 1200, analog := 160, digital := 0 } := by decide +kernel

/-- The short frame of chapter 1 is malformed at index 1802. -/
theorem test_frameEnd_short :
    ((after (inLines 1800) (.frameEndMarker .left)).side .left).port.malformIndex = some 1802 := by decide +kernel

theorem test_frameEnd_good :
    ((after (inLines 2560) (.frameEndMarker .left)).side .left).port.goodCount = 1 := by decide +kernel

/-- The loss expiry of chapter 1 at tick 891700, and no expiry a tick earlier. -/
theorem test_lossExpiry :
    (after { inLines 1000 with tick := 891700 } (.lossExpiry .left)).faults.get (.side .sensorLoss .left) =
        { state := .active, count := 1, firstActive := some 891700, lastChange := some 891700, detail := 4118 } ∧
      ((after { inLines 1000 with tick := 891699 } (.lossExpiry .left)).side .left).port.state = .running := by decide +kernel

/-- The superseding example of chapter 1: service write 40 under its first attempt, group 42 waiting; the SENSOR bank is poisoned, so
that the device address is the ROM default without a read. -/
def busy : State :=
  { up with opened := 1 }.onSide .right (fun d =>
    { d with
      bus := { d.bus with
        buffer := [{ register := 0x1E04, value := 1, origin := .service, group := 40, sent := true },
                   { register := 0x4A10, value := 1200, origin := .exposure, group := 42, sent := false },
                   { register := 0x4A14, value := 9, origin := .exposure, group := 42, sent := false }],
        state := .sending, attempts := 1, groupCounter := 43, timerStart := 990,
        transaction := some { number := 0, device := 0x2C, register := 0x1E04, value := 1 } },
      tables := { d.tables with
        ctl := d.tables.ctl.set .sensor { TableCtl.reset with bad0 := some 0 }, poisonCond := true } })

/-- The first attempt on INT sets both sent flags of group 42 (R18). -/
theorem test_busAck :
    ((after busy (.sensorBusResponse .right ⟨0, true⟩)).side .right).bus.buffer.map (fun e => (e.group, e.sent)) =
        [(42, true), (42, true)] ∧
      ((after busy (.sensorBusResponse .right ⟨0, true⟩)).side .right).bus.transaction =
        some { number := 1, device := 0x2C, register := 0x4A10, value := 1200 } := by decide +kernel

/-- A NAK on the service write opens its second attempt (R19). -/
theorem test_busNak : ((after busy (.sensorBusResponse .right ⟨0, false⟩)).side .right).bus.attempts = 2 := by decide +kernel

/-- The response timer runs out at 20 ticks, not at 19 (R18, R19). -/
theorem test_responseTimer :
    ((after { busy with tick := 1010 } (.responseTimerExpiry .right)).side .right).bus.attempts = 2 ∧
      ((after { busy with tick := 1009 } (.responseTimerExpiry .right)).side .right).bus.attempts = 1 := by decide +kernel

/-- The expiry is taken first: the ACK to the closed transaction that follows is discarded, and the attempt opened since stays (R19). -/
theorem test_responseTimer_lateAck :
    let t := after { busy with tick := 1010 } (.responseTimerExpiry .right)
    after t (.sensorBusResponse .right ⟨0, true⟩) = t ∧ (t.side .right).bus.transaction.map Transaction.number = some 1 := by
  decide +kernel

/-- The part with an angle of 300 held since tick 1000, 50000 ticks ago. -/
def quiet : State := { up with tick := 51000, artic := { angle := 300, tick := 1000, stale := false } }

/-- PAN_INPUT_STALE is set with detail 300 (chapter 5). -/
theorem test_articulationTimer :
    (after quiet .articulationTimerExpiry).faults.get (.part .panInputStale) =
      { state := .active, count := 1, firstActive := some 51000, lastChange := some 51000, detail := 300 } := by decide +kernel

/-- The composer of the echo example (chapter 7) as it stands before output frame start 904: the strike of 903 is held. -/
def lagging : State :=
  up.onSide .right (fun d =>
    { d with comp := { d.comp with frameCount := 903, lagStrikes := 1, status := some { echo := 898, panelFault := false } } })

/-- At 904 the lag is 5, the second strike in a row, and DISPLAY_FREEZE is set with detail 5. -/
theorem test_outputFrameStart_echo :
    ((after lagging (.outputFrameStart .right)).faults.get (.side .displayFreeze .right)).detail = 5 ∧
      ((after lagging (.outputFrameStart .right)).side .right).comp.freezeCond = true := by decide +kernel

/-- The start limit of the ROM LAYOUT is 180: the 180th output frame start without a frame makes the view LOST (R138). -/
theorem test_outputFrameStart_startLimit :
    ((after (up.onSide .left (fun d => { d with comp := { d.comp with startCount := 179 } })) (.outputFrameStart .left)).side
      .left).comp.view = .lost := by decide +kernel

/-- The LEFT link with a FAULT notice, a CAUTION notice and a ready reply. -/
def loaded : State :=
  up.onLink .left (fun k => { k with notices := [.side .viewStale .left, .side .sensorLoss .left],
                                     replies := [.reserved 1 .left, .ready { tag := 9, reason := none, data := [5] }] })

/-- The FAULT notice goes first (R186): kind 0x0B03, index 0 and class 0, state and count 0, detail 0. -/
theorem test_linePeriod_notice :
    (after loaded (.linePeriodStart 1)).links.left.forward =
      some { period := 1, packet := some [0x0B03, 0, 0, 0, 0xF4FD], pixels := [] } := by decide +kernel

/-- Without a FAULT notice the ready reply goes before the CAUTION notice and past the reservation (R186, R194). -/
theorem test_linePeriod_reply :
    (after (loaded.onLink .left (fun k => { k with notices := [.side .viewStale .left], overrun := true }))
        (.linePeriodStart 1)).links.left =
      { upLink with
        notices := [.side .viewStale .left], replies := [.reserved 1 .left],
        forward := some { period := 1, packet := some [0x0B02, 0x0209, 0x0100, 5, 0xF1F0], pixels := [] } } := by decide +kernel

theorem test_trainingRequest :
    (after State.reset (.trainingRequest .left)).links.left.state = .training := by decide +kernel

/-- A link that has been UP takes DISPLAY_LINK_DOWN with detail 1 when it loses lock, and its trim is 0 (R51, R192). -/
theorem test_lossOfLock :
    ((after (up.onSide .left (fun d => { d with exposure := { d.exposure with trim := 20 } })) (.lossOfLock .left)).faults.get
        (.side .displayLinkDown .left)).detail = 1 ∧
      ((after (up.onSide .left (fun d => { d with exposure := { d.exposure with trim := 20 } })) (.lossOfLock .left)).side
        .left).exposure.trim = 0 := by decide +kernel

theorem test_ready :
    (after (after State.reset (.trainingRequest .left)) (.ready .left)).links.left.beenUp = true := by decide +kernel

theorem test_statusWord :
    ((after lagging (.statusWord .right 903 1)).side .right).comp.status = some { echo := 903, panelFault := true } := by
  decide +kernel

theorem test_packetDropped : after up (.packetDropped .left [1]) = up := rfl

theorem test_unknownDirective :
    lastReply (after up (.unknownDirective .left 0x13 (pkt 0 0 0))) .left = refused .unknownDirective [] := by decide +kernel

theorem test_frameHistory_empty : lastReply (after up (.frameHistory .left (pkt 0 0 7))) .left = done [0] := by decide +kernel

/-- Record 23 is ERROR_CORRECTED, class 12 of the part, severity INFO, CLEAR; both masks are 0x07FF (R175, R182, R214). -/
theorem test_faultRecord :
    lastReply (after up (.faultRecord .left (pkt 0 1 23))) .left = done [0x0C17, 1, 0, 0, 0, 0, 0, 0, 0, 0x07FF, 0x07FF] := by
  decide +kernel

/-- The log of chapter 6: CORRECTED at 1385105 = 21 × 65536 + 8849 on RIGHT, syndrome 128 + 3. -/
theorem test_errorLog :
    lastReply (after { up with corrCond := true, frameStore := { up.frameStore with
          log := some { kind := .corrected, addr := 1385105, syndrome := 131, side := .right },
          injection := some { kind := .double, trigger := .count 2, reads := 1 } } } (.errorLog .left (pkt 0 2 1))) .left =
      done [0x007D, 131, 8849, 21, 2, 0, 1] := by decide +kernel

/-- At reset: AUTO in bank 0, no record, nothing scheduled and no direction (4 each). -/
theorem test_exposureState :
    lastReply (after up (.exposureState .left (pkt 1 3 0))) .left = done [0, 0x0044, 0, 0, 0, 0, 0, 0] := by decide +kernel

theorem test_glareLevels :
    lastReply (after up (.glareLevels .left (pkt 0 4 15))) .left = done (List.replicate 52 0) := by decide +kernel

theorem test_windowState :
    lastReply (after quiet (.windowState .left (pkt 0 5 0))) .left = done (List.replicate 15 0 ++ [300, 0]) := by decide +kernel

theorem test_slotState_bad_side :
    lastReply (after up (.slotState .left (pkt 2 6 0))) .left = refused .badArgument [] := by decide +kernel

theorem test_tableState :
    ((lastReply (after up (.tableState .left (pkt 0 7 0))) .left).map (fun e => match e with
      | .ready r => r.data.drop 78
      | .reserved _ _ => [])) = some [0, 0, 0, 0, 2048, 0, 0, 0] := by decide +kernel

theorem test_defectEntry_beyond :
    lastReply (after up (.defectEntry .left (pkt 0 8 4095))) .left = done [0, 0, 0, 0, 0] ∧
      lastReply (after up (.defectEntry .left (pkt 0 8 4096))) .left = refused .badArgument [] := by decide +kernel

theorem test_partState :
    ((lastReply (after up (.partState .left (pkt 3 9 0))) .left).map (fun e => match e with
      | .ready r => r.data.take 3
      | .reserved _ _ => [])) = some [0x5A24, 1, 1] := by decide +kernel

/-- LADDER of LEFT (kind 2): two words at offset 4 go to the shadow, bank 1, words 328 and 329 of the block at 512 (R155). -/
def loadLadder : Packet := pktArgs 0 0x0002 0x0204 [40, 7]

theorem test_loadTable :
    Mem.read tableDefault (after up (.loadTable .left loadLadder)).tableStore.mem 840 = encodeWord 22 40#16 ∧
      ((after up (.loadTable .left loadLadder)).side .left).tables.ctl.ladder.shadow = .loaded := by decide +kernel

theorem test_loadTable_too_long :
    lastReply (after up (.loadTable .left (pktArgs 0 0x0002 0x0205 [40, 7]))) .left = refused .badArgument [] := by decide +kernel

/-- COMMIT of LADDER, table 8: STALE is WRONG_STATE; loaded with dwell 0 at word 4 it is BAD_CONTENT (R159, R160). -/
theorem test_commit :
    lastReply (after up (.commit .left (pkt 0 0x0100 0))) .left = refused .wrongState [8] ∧
      lastReply (after (after up (.loadTable .left (pktArgs 0 0x0002 0x0104 [0]))) (.commit .left (pkt 0 0x0100 0))) .left =
        refused .badContent [8, 4] := by decide +kernel

/-- A valid LADDER is swapped at once while the port is SEARCHING, and is held while it is RUNNING (R161, R162). -/
theorem test_commit_accepted :
    lastReply (after (after up (.loadTable .left loadLadder)) (.commit .left (pkt 0 0x0100 0))) .left = done [0x0100] ∧
      lastReply (after (after (inLines 0) (.loadTable .left loadLadder)) (.commit .left (pkt 0 0x0100 0))) .left =
        some (.reserved 7 .left) := by decide +kernel

theorem test_setProfileModeForce :
    ((after up (.setProfileModeForce .left (pkt 2 1 2))).side .right).exposure.scheduled = some 2 := by decide +kernel

theorem test_setProfileModeAuto :
    ((after (up.onSide .left (fun d => { d with exposure := { d.exposure with mode := .forced 3, bank := 3 } }))
      (.setProfileModeAuto .left (pkt 0 0 0))).side .left).exposure.scheduled = some 0 := by decide +kernel

theorem test_articulation :
    (after quiet (.articulation .right (pkt 3 0xFC00 0))).artic = { angle := -900, tick := 51000, stale := false } := by
  decide +kernel

/-- The fitter's AIM of (+75, -10) is clamped to (+60, -10) (chapter 5). -/
theorem test_aim : lastReply (after up (.aim .left (pkt 1 75 0xFFF6))) .left = done [60, 0xFFF6] := by decide +kernel

theorem test_trim :
    ((after up (.trim .left (pkt 0 300 0))).side .left).exposure.trim = 256 ∧
      lastReply (after up (.trim .left (pkt 0 300 0))) .left = done [256] := by decide +kernel

theorem test_outputMode :
    lastReply (after up (.outputMode .left (pkt 2 1 0))) .left = done [1, 0, 1, 0] := by decide +kernel

/-- A site outside the sensor is refused, the next is accepted (R167). -/
theorem test_defectAdd :
    lastReply (after up (.defectAdd .left (pktArgs 0 2 0 [2560, 0, 2559, 1919]))) .left = done [1, 1, 0] ∧
      ((after up (.defectAdd .left (pktArgs 0 2 0 [2560, 0, 2559, 1919]))).side .left).dev.edits = [.add 2559 1919 0] := by
  decide +kernel

theorem test_defectRemove_unlisted :
    lastReply (after up (.defectRemove .left (pktArgs 1 1 0 [5, 6]))) .left = done [0, 1, 0] := by decide +kernel

theorem test_defectSplit :
    (after up (.defectSplit .left (pkt 0 4096 0))).tableStore.leftShare = 4096 ∧
      lastReply (after up (.defectSplit .left (pkt 0 4095 0))) .left = refused .badArgument [] := by decide +kernel

/-- The part after the expiry of the articulation timer. -/
def stale : State := after quiet .articulationTimerExpiry

theorem test_ackFault :
    lastReply (after stale (.ackFault .left (pkt 0 11 0))) .left = done [22, 2, 1, 300] ∧
      lastReply (after up (.ackFault .left (pkt 0 11 0))) .left = refused .notActive [] := by decide +kernel

theorem test_noticeMask :
    (after up (.noticeMask .left (pkt 1 0x1FFF 0))).links.right.mask = 0x1FFF ∧
      lastReply (after up (.noticeMask .left (pkt 1 0x2000 0))) .left = refused .badArgument [] := by decide +kernel

theorem test_clearErrorLog :
    (after { up with corrCond := true, tableStore := { up.tableStore with
        log := some { kind := .corrected, addr := 1, syndrome := 35, side := .left } } }
      (.clearErrorLog .left (pkt 0 3 0))).corrCond = false := by decide +kernel

/-- SINGLE (1 in bits 4..5), ADDRESS (1 in bits 8..9), frame store (1): address 1385105 is two words (chapter 6). -/
theorem test_injectErrorFrameStore :
    (after up (.injectErrorFrameStore .left (pktArgs 0 0x0111 0 [8849, 21]))).frameStore.injection =
      some { kind := .single, trigger := .address 1385105, reads := 0 } := by decide +kernel

theorem test_injectErrorTableStore :
    (after up (.injectErrorTableStore .left (pktArgs 0 0x0222 0 [2, 0]))).tableStore.injection =
      some { kind := .double, trigger := .count 2, reads := 0 } := by decide +kernel

theorem test_lock : lastReply (after up (.lock .left (pkt 0 2 0))) .left = done [0, 0, 1, 0] := by decide +kernel

theorem test_sensorWrite :
    lastReply (after busy (.sensorWrite .left (pkt 1 0x1E05 9))) .left = done [43] ∧
      ((after busy (.sensorWrite .left (pkt 1 0x1E05 9))).side .right).bus.buffer.length = 4 := by decide +kernel

/-- A restart in LINES discards the frame; the frame in progress on the bus keeps its head alone (R14, R22). -/
theorem test_restartSide :
    ((after (inLines 5) (.restartSide .left (pkt 0 0 0))).side .left).port.state = .searching ∧
      ((after busy (.restartSide .left (pkt 1 0 0))).side .right).bus.buffer.length = 1 := by decide +kernel

theorem test_powerOnReset : (after busy .powerOnReset).sides = State.reset.sides := by decide +kernel

theorem test_resetInputAsserted :
    ((after busy .resetInputAsserted).side .right).bus.transaction = none ∧
      after (after busy .resetInputAsserted) (.outputFrameStart .left) = after busy .resetInputAsserted := by decide +kernel

/-! ## The step -/

/-- The output timing at an output frame start. -/
def t0 : Timing := { cycle := 0, elapsed := 0, nextPeriod := 0 }

/-- Line period 1 starts 1 tick after the output frame start, floor(1667 / 1300) (R130). -/
theorem test_step_period :
    (match step { State.reset with timing := { cycle := 0, elapsed := 1, nextPeriod := 1 } } with
      | .next t => (t.pending, t.timing.nextPeriod)
      | .fault _ => ([], 0)
      | .refused _ => ([], 0)) = ([.linePeriodStart 1], 2) := by decide +kernel

/-- With nothing due the tick counter wraps (R130, 00_scope.md). -/
theorem test_step_tick :
    (match step { State.reset with tick := 0xFFFFFFFF, timing := { cycle := 2, elapsed := 1666, nextPeriod := 1300 },
                                   artic := { angle := 0, tick := 0xFFFFFFFF, stale := false } } with
      | .next t => (t.tick, t.timing)
      | .fault _ => (1, t0)
      | .refused _ => (1, t0)) = (0, { cycle := 0, elapsed := 0, nextPeriod := 0 }) := by decide +kernel

/-! ## Witnesses: for each statement with hypotheses, concrete states and operands that meet them, clause by clause -/

theorem up_admits (l : Side) : up.Admits l := by cases l <;> (unfold State.Admits; decide +kernel)

theorem pkt_plain (side : BitVec 2) (s0 s1 : Word) : (pkt side s0 s1).Plain := ⟨rfl, rfl⟩

/-- A side with a FILLING, a READY and a SHOWING slot, a frame in LINES after `n` active lines and the developer at work on it. -/
def framed (n : Nat) : State :=
  (inLines n).onSide .left (fun d =>
    { d with
      port := { d.port with goodCount := 2, frameCond := true, lossCond := true },
      store := { d.store with slots :=
        { s0 := { state := .filling, damaged := false,
                  content := some { geometry := .live, source := { frame := 3, arrival := 990 }, link := 2 } },
          s1 := { state := .ready, damaged := false,
                  content := some { geometry := .live, source := { frame := 2, arrival := 900 }, link := 1 } },
          s2 := { state := .showing, damaged := false,
                  content := some { geometry := .live, source := { frame := 1, arrival := 500 }, link := 0 } } } },
      comp := { d.comp with view := .liveOk },
      dev := { d.dev with
        frame := some 3, geometry := some .live,
        inputs := some
          { exposure := { total := 2779, integ := 1200, analog := 160, digital := 0 }, bank := 0, tempClass := .normal,
            defects := [], attenuations := List.replicate 192 0, main := { x := 120, y := 240, w := 720, h := 800 },
            wide := { x := 0, y := 320, w := 960, h := 960 }, slot := some .s0 } } })

theorem framed_slots (n : Nat) (x : Side) : ((framed n).side x).SlotsLawful := by
  cases x
  · refine ⟨fun a b => ?_, fun a => ?_, fun a => ?_⟩
    · cases a <;> cases b <;> simp [framed, inLines, State.onSide, State.side, Sided.get, Sided.set, Slots.get]
    · cases a <;> simp [framed, inLines, State.onSide, State.side, Sided.get, Sided.set, Slots.get]
    · cases a <;> simp [framed, inLines, State.onSide, State.side, Sided.get, Sided.set, Slots.get]
  · refine ⟨fun a b h => .inr ?_, fun a => ?_, fun a h => ?_⟩
    · cases a <;> rfl
    · cases a <;> exact ⟨fun _ => rfl, fun _ => rfl⟩
    · cases a <;> exact absurd (show SlotState.free = .filling from h) (by decide)

/-! ### The step and the reset -/

theorem witness_EmptyQueueCountsATickOrQueuesWhatIsDue :
    ({ up with inReset := true }.pending = [] ∧ { up with inReset := true }.inReset = true) ∧
    (let s : State := { up with timing := { cycle := 0, elapsed := 0, nextPeriod := 1 } }
     s.pending = [] ∧ s.inReset = false ∧ s.dueExpiries ++ s.dueTiming.1 = []) ∧
    (up.pending = [] ∧ up.inReset = false ∧ up.dueExpiries ++ up.dueTiming.1 ≠ []) := by decide +kernel

theorem witness_ResetInputCutsOffAndHoldsOffEveryEvent :
    (after busy .resetInputAsserted).inReset = true ∧ (Instr.ready .left) ≠ .powerOnReset ∧
      (Instr.ready .left) ≠ .resetInputAsserted := by decide +kernel

/-! ### Laws that every step keeps: a state that meets them all with a command in front -/

/-- The busy bus with a pending commit, its reservation, and an ACK in front of the queue. -/
def queued : State :=
  { (busy.onSide .right (fun d => { d with tables := { d.tables with commit := some { tables := 1, link := some .left } } })).onLink
      .left (fun k => { k with replies := [.reserved 4 .right], notices := [.side .viewLost .right] }) with
    pending := [.sensorBusResponse .right ⟨0, true⟩] }

theorem queued_steps : ∃ t, step queued = .next t := ⟨_, rfl⟩

theorem witness_EveryStepKeepsTheMemoriesCanonical :
    ({ queued with frameStore := { queued.frameStore with mem := [(3, 1#72), (9, 2#72)] } } : State).MemoriesCanonical := by
  unfold State.MemoriesCanonical; decide +kernel

theorem witness_EveryStepKeepsTheQueueBounds : queued.QueuesBounded := by
  unfold State.QueuesBounded
  intro x
  cases x <;> refine ⟨?_, ?_, ?_, ?_, ?_, ?_⟩ <;> decide +kernel

theorem witness_EveryStepKeepsTheSlotLaws (x : Side) :
    (({ framed 2560 with pending := [.frameEndMarker .left] } : State).side x).SlotsLawful := framed_slots 2560 x

theorem witness_EveryStepKeepsTheViewLaws (x : Side) :
    (({ framed 2560 with pending := [.outputFrameStart .left] } : State).side x).comp.ViewLawful := by
  cases x <;> exact ⟨rfl, rfl, fun _ _ _ h => by cases h⟩

theorem witness_EveryStepKeepsReservationsMatched : queued.ReservationsLawful := by
  unfold State.ReservationsLawful
  intro x l
  cases x <;> cases l <;> decide +kernel

theorem witness_EveryStepKeepsTheBusLaws : (∀ x, (queued.side x).bus.Lawful) ∧ queued.NumbersLawful := by
  refine ⟨fun x => ?_, fun x w h => ?_⟩
  · cases x
    · exact ⟨rfl, rfl⟩
    · exact ⟨by decide, by decide, by decide, _, _, rfl, rfl⟩
  · cases x <;> cases h
    decide

theorem witness_EveryStepKeepsTheOutputTimingInPace :
    (Timing.Lawful { cycle := 1, elapsed := 1665, nextPeriod := 1300 }) ∧ Timing.Lawful { cycle := 0, elapsed := 0, nextPeriod := 0 } := by
  unfold Timing.Lawful; decide +kernel

theorem witness_EveryStepKeepsTheRanges : (∀ x, (queued.side x).CountsLawful) ∧ queued.PartRangesLawful := by
  unfold SideState.CountsLawful State.PartRangesLawful
  refine ⟨fun x => by cases x <;> decide +kernel, by decide +kernel, by decide +kernel, fun i => ?_⟩
  cases i with
  | side c x => cases c <;> cases x <;> decide +kernel
  | part p => cases p <;> decide +kernel

/-! ### Sensor port -/

theorem witness_FrameBeginMarkerOpensAFrame :
    (up.inReset = false ∧ (up.side .left).port.phase = .closed) ∧
    (inStatus.inReset = false ∧ (inStatus.side .left).port.phase ≠ .closed) ∧
    ((framed 2560).inReset = false ∧ ((framed 2560).side .left).port.phase = .lines ∧
      ∃ n, (((framed 2560).side .left).store.slots.get n).state = .filling) := by
  refine ⟨by decide +kernel, by decide +kernel, rfl, rfl, .s0, rfl⟩

/-- Line 481 completes cell row 240, the first source row of the main pane: output row 0 of slot 0, words 0 to 269. Address 345600, the
first of slot 1, stays. -/
theorem witness_ActiveLineWritesOnlyTheRowsItCompletes :
    ((framed 481).inReset = false ∧ ((framed 481).side .left).port.phase = .lines ∧
      (List.replicate 1920 (0 : Sample)).length = 1920 ∧ ((framed 481).side .left).port.lineCount < 2560) ∧
    (SlotNo.s0, 0) ∈ (framed 481).rowsCompleted .left 481 ∧
    (∀ r ∈ (framed 481).rowsCompleted .left 481,
      345600 < frameAddr .left r.1 r.2 0 ∨ frameAddr .left r.1 r.2 0 + 270 ≤ 345600) ∧
    ((framed 2559).side .left).port.lineCount < 2560 := by
  refine ⟨?_, ?_, ?_, ?_⟩ <;> decide +kernel

/-- In that frame the last word of output row 0, which takes cell row 240, and zone 191; the clauses on defects, on gains at and below 0 dB
and on markers each at a boundary. -/
theorem witness_ActiveLineWritesOnlyTheRowsItCompletes_words :
    (((framed 481).side .left).dev.frame = some 3 ∧ ((framed 481).side .left).dev.inputs.map FrameInputs.slot = some (some .s0) ∧
      240 ∈ completedRows [] 481 ∧ (livePanes ((framed 481).layoutOf .left) { x := 120, y := 240, w := 720, h := 800 }
        { x := 0, y := 320, w := 960, h := 960 }).head?.map (fun p => decide (0 < p.height) && decide (p.sourceRow 0 = 240)) =
          some true ∧ 269 < 270 ∧ (((framed 481).side .left).dev.zones[191]?).isSome = true) ∧
    (ReachesBeyond [(1, 0), (1, 2)] 1 ∧ ReachesBeyond [(0, 1919), (0, 1917)] 0 ∧ ¬ ReachesBeyond [(0, 5)] 0) ∧
    ((List.replicate 1920 0).length = 1920 ∧ 959 < 960) ∧
    ((1024 : Int) = 256 * 4 + (0 : Nat) ∧ (-2048 : Int) = 256 * (-8) + (0 : Nat) ∧ 4095 = 64 * 63 + 63) ∧
    (mainPane.covered { wide := false, row := 850, colour := 3, thickness := 2 } 472 = true ∧
      mainPane.covered { wide := false, row := 850, colour := 3, thickness := 2 } 473 = true ∧
      mainPane.covered { wide := false, row := 850, colour := 3, thickness := 2 } 474 = false) := by
  refine ⟨by decide +kernel, ⟨⟨0, by decide⟩, ⟨1919, by decide⟩, ?_⟩, by decide +kernel, by decide, by decide +kernel⟩
  rintro ⟨c, -, h, hl, -⟩
  simp at h
  simp [h] at hl

/-- A side in STATUS with a frame in force that does not match the status lines, two mismatches behind it, a pending edit, a pending commit
with its reservation, and SENSOR_HOT set or not; its defect list holds the site of chapter 3 without error. -/
def startReady (temp : Sample) (hot : Bool) : State :=
  (inStatus.writeTableWords 2048 [0x0280, 0x832C]).onSide .left (fun d =>
    { d with
      port := { d.port with statusLines := [[0x234, 0x001, 0x4B0, 0x005, temp, 0x000]], hotCond := hot },
      exposure := { d.exposure with
        inForce := some { total := 2960, integ := 1200, analog := 320, digital := 21 }, mismatchCount := 2 },
      dev := { d.dev with edits := [.add 2559 1919 0] },
      tables := { d.tables with defectCount := 1, commit := some { tables := 1, link := some .right } } })

theorem witness_SecondStatusLineTakesTheFrameStart_blocks :
    ((startReady 105 false).inReset = false ∧ ((startReady 105 false).side .left).port.phase = .status ∧
      ((startReady 105 false).side .left).port.lineCount = 1 ∧
      ((startReady 105 false).side .left).port.hotCond = false ∧ ((startReady 101 true).side .left).port.hotCond = true) ∧
    (startReady 105 false).StoresList .left [{ row := 640, col := 812, cls := 2 }] ∧
    applyEdits [{ row := 640, col := 812, cls := 2 }] ((startReady 105 false).side .left).dev.edits =
      [{ row := 640, col := 812, cls := 2 }, { row := 2559, col := 1919, cls := 0 }] ∧
    (∃ c, ((startReady 105 false).side .left).tables.commit = some c ∧ c.link = some .right) ∧
    ((startReady 105 false).artic.stale = true ∨ (startReady 105 false).artic.angle = 0) ∧
    (let t := after (startReady 105 false) (.line .left (List.replicate 1920 0))
     (t.side .left).history.head?.map FrameRecord.matched = some false ∧ 3 ≤ (t.side .left).exposure.mismatchCount) := by
  refine ⟨by decide +kernel, ⟨rfl, rfl, fun i e h => ?_⟩, by decide, ⟨_, rfl, rfl⟩, .inr rfl, by decide +kernel⟩
  match i with
  | 0 => cases h; decide +kernel
  | i + 1 => cases h

theorem witness_SecondStatusLineTakesTheFrameStart :
    inStatus.inReset = false ∧ (inStatus.side .left).port.phase = .status ∧ (inStatus.side .left).port.lineCount = 1 ∧
      (inStatus.side .left).port.statusLines = [[0x234, 0x001, 0x4B0, 0x005, 0x069, 0x000]] ∧
      (List.replicate 1920 (0 : Sample)).length = 1920 := by decide +kernel

/-- A malformed count of 2 goes to 3 and reports, one of 1 goes to 2 and does not. -/
theorem witness_MalformedFramesAreClosedAndCounted :
    (up.inReset = false ∧ (up.side .left).port.phase = .closed) ∧
    ((∃ ws, Instr.line .left [] = .line .left ws ∧ ws.length ≠ 1920) ∧ (inStatus.side .left).port.phase = .status) ∧
    ((∃ ws, Instr.line .left (List.replicate 1920 0) = .line .left ws ∧
        (ws.length ≠ 1920 ∨ 2560 ≤ ((inLines 2560).side .left).port.lineCount)) ∧
      ((inLines 2560).side .left).port.phase = .lines) ∧
    (((inLines 2559).side .left).port.phase = .lines ∧ ((inLines 2559).side .left).port.lineCount ≠ 2560) ∧
    ((after ((inLines 2559).onSide .left (fun d => { d with port := { d.port with badCount := 2 } })) (.frameEndMarker .left)).side
      .left).port.badCount = 3 ∧
    ((after ((inLines 2559).onSide .left (fun d => { d with port := { d.port with badCount := 1 } })) (.frameEndMarker .left)).side
      .left).port.badCount = 2 := by
  refine ⟨by decide +kernel, ⟨⟨_, rfl, by decide⟩, rfl⟩, ⟨⟨_, rfl, .inr ?_⟩, rfl⟩, ?_, ?_, ?_⟩ <;> decide +kernel

/-- A frame cut short with its slot FILLING. -/
theorem witness_MalformedFramesAreClosedAndCounted_discard :
    ((framed 2559).side .left).port.phase = .lines ∧ ((framed 2559).side .left).SlotsLawful ∧
      (((framed 2559).side .left).store.slots.get .s0).state = .filling := ⟨rfl, framed_slots _ _, rfl⟩

/-- A frame of bank 0 at its good frame end: every zone of the main window is metered, the ladder leads toward DUSK, and the requested
exposure differs from the expected one. The bus is IDLE and its buffer empty; 15 sent entries leave no room. -/
theorem witness_GoodFrameEndMakesTheFrameReady_metering :
    (∃ inp, ((framed 2560).side .left).dev.inputs = some inp ∧ inp.bank = 0 ∧ inp.exposure.total = 2779) ∧
    ((framed 2560).side .left).exposure.mode = .auto ∧
    (readLadder ((framed 2560).copies .left).ladder).Leads 0 1 ((logLevel 0 : Int) - (2779 : Nat)) ∧
    requestedExposure ((framed 2560).profileOf .left 0)
      (limitsOf ((framed 2560).profileOf .left 0) ((framed 2560).sensorOf .left)) 0 0 2779 ≠ 2779 ∧
    (((framed 2560).side .left).bus.state = .idle ∧ ((framed 2560).side .left).bus.buffer = []) ∧
    14 < ((List.replicate 15 ({ register := 1, value := 2, origin := .service, group := 3, sent := true } : WriteEntry)).filter
      (fun w => !(decide (w.origin = .exposure) && !w.sent))).length := by
  refine ⟨⟨_, rfl, rfl, rfl⟩, rfl, .inl ⟨rfl, rfl, by decide +kernel⟩, by decide +kernel, ⟨rfl, rfl⟩, by decide +kernel⟩

theorem witness_GoodFrameEndMakesTheFrameReady :
    (framed 2560).inReset = false ∧ ((framed 2560).side .left).port.phase = .lines ∧
      ((framed 2560).side .left).port.lineCount = 2560 ∧ ((framed 2560).side .left).dev.frame.isSome = true ∧
      ((framed 2560).side .left).dev.inputs.isSome = true ∧ ((framed 2560).side .left).port.lossCond = true ∧
      ((framed 2560).side .left).port.goodCount + 1 = 3 ∧ ((framed 2560).side .left).port.frameCond = true ∧
      (((framed 2560).side .left).store.slots.get .s0).state = .filling ∧
      (((framed 2560).side .left).store.slots.get .s1).state = .ready := by decide +kernel

/-- A frame of 2560 lines in LINES, at its last zone. -/
theorem witness_GoodFrameEndUpdatesEveryGlareZone :
    (framed 2560).inReset = false ∧ ((framed 2560).side .left).port.phase = .lines ∧
      ((framed 2560).side .left).port.lineCount = 2560 ∧ ((framed 2560).side .left).dev.frame = some 3 ∧
      ((framed 2560).side .left).dev.inputs.map FrameInputs.bank = some 0 ∧
      ((framed 2560).side .left).glare.zones.length = 192 ∧ ((framed 2560).side .left).dev.zones.length = 192 ∧
      ((framed 2560).side .left).glare.zones[191]? = some { level := 0, hold := 0 } ∧
      (((framed 2560).side .left).dev.zones[191]?).isSome = true := by decide +kernel

/-- The loss timeout of the ROM SENSOR table is 10000: not due at 9999 ticks, due at 10000. -/
theorem witness_LossExpiryMakesThePortLost :
    ({ inLines 1000 with tick := 891699 }.lossDue .left = false ∧ { inLines 1000 with tick := 891700 }.lossDue .left = true) ∧
      ((inLines 1000).side .left).port.phase = .lines ∧ (inLines 1000).inReset = false := by decide +kernel

theorem witness_LossExpiryMakesThePortLost_discard :
    ({ framed 1000 with tick := 891700 } : State).lossDue .left = true ∧ ((framed 1000).side .left).SlotsLawful ∧
      (((framed 1000).side .left).store.slots.get .s0).state = .filling := ⟨by decide +kernel, framed_slots _ _, rfl⟩

/-! ### Sensor bus -/

/-- The bus with the last entry of group 42 under its attempt, the group outstanding and F_cur known; 20 ticks have run. -/
def lastOfGroup (attempts : Nat) : State :=
  { busy with tick := 1010 }.onSide .right (fun d =>
    { d with
      port := { d.port with fcur := some 503 },
      exposure := { d.exposure with
        outstanding := [{ group := 42, record := { total := 2960, integ := 1200, analog := 320, digital := 21 } }] },
      bus := { d.bus with
        buffer := [{ register := 0x4A14, value := 10, origin := .exposure, group := 42, sent := true }], attempts := attempts } })

theorem witness_AcknowledgedWriteLeavesTheBuffer :
    ((up.side .left).bus.state = .idle ∧ up.inReset = false) ∧
    ((busy.side .right).bus.state = .sending ∧ (busy.side .right).bus.finishing = false ∧
      (∃ e n more, (busy.side .right).bus.buffer = e :: n :: more ∧ e.origin = .service)) ∧
    (((lastOfGroup 1).side .right).bus.state = .sending ∧ ((lastOfGroup 1).side .right).bus.finishing = false ∧
      (∃ e, ((lastOfGroup 1).side .right).bus.buffer = [e] ∧ e.origin = .exposure ∧
        ∃ o, ((lastOfGroup 1).side .right).exposure.outstanding.find? (fun o => decide (o.group = e.group)) = some o) ∧
      ((lastOfGroup 1).side .right).port.fcur = some 503) := by
  refine ⟨by decide +kernel, ⟨rfl, rfl, _, _, _, rfl, rfl⟩, rfl, rfl, ⟨_, rfl, rfl, _, rfl⟩, rfl⟩

theorem witness_FailedAttemptIsRetriedTwiceThenReported :
    ((lastOfGroup 2).inReset = false ∧ ((lastOfGroup 2).side .right).bus.state = .sending ∧
      (∃ e, ((lastOfGroup 2).side .right).bus.buffer = [e] ∧ e.origin = .exposure) ∧
      ((lastOfGroup 2).side .right).bus.finishing = false ∧ (lastOfGroup 2).responseDue .right = true) ∧
    ((lastOfGroup 2).side .right).bus.attempts < 3 ∧ 3 ≤ ((lastOfGroup 3).side .right).bus.attempts ∧
    ({ busy with tick := 1010 }.responseDue .right = true ∧
      ∃ e rest, (busy.side .right).bus.buffer = e :: rest ∧ e.origin = .service) := by
  refine ⟨⟨rfl, rfl, ⟨_, rfl, rfl⟩, rfl, by decide +kernel⟩, by decide +kernel, by decide +kernel, by decide +kernel, _, _, rfl, rfl⟩

/-- That bus with its head left to finish by a side restart, with and without an entry behind it; a NAK before the timer has run out and
the expiry at 20 ticks, both on transaction 0 of the one opened. -/
theorem witness_FailedAttemptIsRetriedTwiceThenReported_finishing :
    let s := (lastOfGroup 2).onSide .right (fun d => { d with bus := { d.bus with finishing := true } })
    (s.inReset = false ∧ (s.side .right).bus.state = .sending ∧ (s.side .right).bus.finishing = true ∧
      (s.side .right).bus.transaction.map Transaction.number = some 0 ∧ 0 < s.opened ∧ s.responseDue .right = true ∧
      ∃ e, (s.side .right).bus.buffer = [e]) ∧
    (busy.responseDue .right = false ∧ (busy.side .right).bus.transaction.map Transaction.number = some 0 ∧ 0 < busy.opened ∧
      ∃ e n more, (busy.side .right).bus.buffer = e :: n :: more) ∧
    (busy.side .right).bus.transaction.map Transaction.number ≠ some 1 := by
  refine ⟨⟨rfl, rfl, rfl, rfl, by decide, by decide +kernel, _, rfl⟩, ⟨by decide +kernel, rfl, by decide, _, _, _, rfl⟩, by decide⟩

/-! ### Exposure arithmetic -/

theorem witness_LogOfALevelFollowsItsRule :
    (4095 ≤ 4095 ∧ 2 ^ 11 ≤ max 4095 1 ∧ max 4095 1 < 2 ^ (11 + 1)) ∧ (0 ≤ 4095 ∧ 2 ^ 0 ≤ max 0 1 ∧ max 0 1 < 2 ^ (0 + 1)) := by
  decide

theorem witness_PowerOfStepsFollowsItsRule : 3069 = 256 * 11 + 253 ∧ 253 < 256 ∧ 255 = 256 * 0 + 255 ∧ 2900 ≤ 3069 := by decide

/-- Bank 0: target 2560, deadband 16, damping 8. A level of 1023 is 2560 - 2559 = 1 away, inside the deadband; 600 is 197 below the
target, 4000 is 503 above it. -/
theorem witness_RequestedExposureFollowsItsRule :
    (-16 ≤ (2560 : Int) - logLevel 1023 ∧ (2560 : Int) - logLevel 1023 ≤ 16) ∧
    ((2560 : Int) - logLevel 600 = 197 ∧ max (-128) (min ((197 : Int) * 8 / 16) 128) = 98) ∧
    ((2560 : Int) - logLevel 4000 = -503 ∧ max (-128) (min (-((503 : Int) * 8 / 16)) 128) = -128) ∧
    (readProfile (romProfile 0)).damping = 8 ∧ (readProfile (romProfile 0)).deadband = 16 := by decide +kernel

theorem witness_SplitFollowsItsRuleAndItsLimits :
    (limitsOf (readProfile (romProfile 2)) (readSensor romSensor)).imaxEff = 4000 ∧
      32 ∣ (limitsOf (readProfile (romProfile 2)) (readSensor romSensor)).aMax := by decide +kernel

/-! ### Articulation timer and output composer -/

theorem witness_ArticulationTimerMakesTheInputStale :
    (stale.inReset = false ∧ stale.artic.stale = true) ∧ ticksSince { quiet with tick := 50999 }.tick quiet.artic.tick < 50000 ∧
      (quiet.inReset = false ∧ quiet.artic.stale = false ∧ 50000 ≤ ticksSince quiet.tick quiet.artic.tick) := by decide +kernel

/-- A READY slot of LIVE geometry of age 100 with the age limit at 6000 is FRESH; with no READY slot the start is a REPEAT. -/
theorem witness_OutputFrameStartMovesTheView :
    (framed 5).inReset = false ∧ ((framed 5).side .left).SlotsLawful ∧ (framed 5).FreshAt .left ∧ up.inReset = false ∧
      (up.side .left).SlotsLawful ∧ ¬ up.FreshAt .left := by
  refine ⟨rfl, framed_slots 5 .left, ⟨.s1, _, rfl, rfl, by decide +kernel, by decide +kernel⟩, rfl, framed_slots 5 .right, ?_⟩
  rintro ⟨n, c, h, -⟩
  cases n <;> exact absurd h (by decide)

/-- A READY slot too old and one of the other geometry; a damaged SHOWING slot that is repeated; the echo check bad by its second strike,
good for the second time, and on a link that is not UP; the clean count at its last step; no record in force and a FAULT in force. -/
theorem witness_OutputFrameStartMovesTheView_clauses :
    ((∃ m k, (({ framed 5 with tick := 60000 } : State).side .left).store.slots.get m = k ∧ k.state = .ready) ∧
      ticksSince { framed 5 with tick := 60000 }.tick 900 > ((framed 5).layoutOf .left).ageLimit) ∧
    (Geometry.live ≠ OutputMode.service.geometry) ∧
    ((lagging.link .right).state = .up ∧
      (lagging.side .right).comp.status.map (fun w => ((lagging.side .right).comp.frameCount - w.echo).toNat) = some 5 ∧
      (lagging.side .right).comp.lagStrikes = 1) ∧
    (let s := up.onSide .left (fun d => { d with
       comp := { d.comp with goodChecks := 1, freezeCond := true, status := some { echo := 0, panelFault := false },
                             content := some .viewLost },
       store := { d.store with cleanCount := 59, fseCond := true } })
     (s.side .left).SlotsLawful ∧ (s.side .left).comp.silence + 1 < 6 ∧
      ((after s (.outputFrameStart .left)).side .left).comp.freezeCond = false ∧
      ((after s (.outputFrameStart .left)).side .left).store.fseCond = false ∧
      ((after s (.outputFrameStart .left)).side .left).comp.warning = some .clear) ∧
    (State.reset.link .left).state ≠ .up ∧
    (((up.faults.set (.side .viewLost .left) { FaultRecord.reset with state := .active }).get (.side .viewLost .left)).state = .active ∧
      SideClass.viewLost.severity = .fault) := by
  refine ⟨⟨⟨.s1, _, rfl, rfl⟩, by decide +kernel⟩, by decide, by decide +kernel,
    ⟨⟨fun a b _ => .inr ?_, fun a => ?_, fun a h => ?_⟩, by decide +kernel⟩, by decide, by decide +kernel⟩
  · cases a <;> rfl
  · cases a <;> exact ⟨fun _ => rfl, fun _ => rfl⟩
  · cases a <;> exact absurd (show SlotState.free = .filling from h) (by decide)

/-- A fresh picture after one start, and the same picture again as a repeat after the next. -/
theorem witness_StalePictureNeverPassesForALiveOne :
    ((after (framed 5) (.outputFrameStart .left)).side .left).comp.content =
        some (.picture .s1 { frame := 2, arrival := 900 } 100) ∧
      ((after (after (framed 5) (.outputFrameStart .left)) (.outputFrameStart .left)).side .left).comp.content =
        some (.picture .s1 { frame := 2, arrival := 900 } 100) ∧
      ((after (after (framed 5) (.outputFrameStart .left)) (.outputFrameStart .left)).side .left).comp.repeatCount = 1 := by
  decide +kernel

/-! ### Line periods -/

theorem witness_LinePeriodGivesTheSlotByTheArbitersRule :
    (State.reset.link .left).state ≠ .up ∧ (loaded.inReset = false ∧ (loaded.link .left).state = .up) ∧
    (loaded.link .left).notices.find? (fun i => decide (i.severity = .fault)) = some (.side .sensorLoss .left) ∧
    ((∀ i ∈ (loaded.onLink .left (fun k => { k with notices := [.side .viewStale .left] })).links.left.notices,
        i.severity ≠ .fault) ∧
      (loaded.link .left).replies.findSome? ReplyEntry.reply? = some { tag := 9, reason := none, data := [5] }) ∧
    ((∀ i ∈ (up.link .left).notices, i.severity ≠ .fault) ∧ (up.link .left).replies.findSome? ReplyEntry.reply? = none) ∧
    (1299 : Fin 1300) ≠ 0 ∧ (19 : Fin 1300).val < 20 := by decide +kernel

/-- Line periods 20 and 43 are rows 0 and 23, line periods 1284 and 1299 rows 1264 and 1279. -/
theorem witness_ActiveLineCarriesItsPixelsAndOverlays :
    let s := up.onSide .left (fun d => { d with comp := { d.comp with content := some .viewLost, warning := some .redBand } })
    s.inReset = false ∧ (s.link .left).state = .up ∧ (s.side .left).comp.content = some .viewLost ∧
      (s.side .left).comp.warning = some .redBand ∧ (20 ≤ (20 : Fin 1300).val ∧ (20 : Fin 1300).val - 20 < 24) ∧
      (43 : Fin 1300).val - 20 < 24 ∧ 1264 ≤ (1284 : Fin 1300).val - 20 ∧ 1264 ≤ (1299 : Fin 1300).val - 20 ∧
      ((up.onSide .left (fun d => { d with comp := { d.comp with warning := some .amberBand } })).side .left).comp.warning =
        some .amberBand := by decide +kernel

/-- The LEFT side shows slot 0, whose word 5 of row 3 is stored with `flips` over the word of zeros. -/
def pictured (flips : BitVec 72) (injection : Option Injection) : State :=
  { up with frameStore := { up.frameStore with
      mem := Mem.write frameDefault [] (frameAddr .left .s0 3 5) flips, injection := injection } }.onSide .left (fun d =>
    { d with comp := { d.comp with view := .liveOk, content := some (.picture .s0 { frame := 1, arrival := 5 } 9) } })

/-- A word of a shown row that reads corrected, and one that reads uncorrectable, by its stored bits and by an injection on its address;
the other words of the row read clean and the RIGHT side shows no picture. -/
theorem witness_ActiveLineCarriesItsPixelsAndOverlays_reads :
    (∀ f i, ((pictured f i).side .left).comp.content = some (.picture .s0 { frame := 1, arrival := 5 } 9) ∧
      ((pictured f i).side Side.left.other).comp.content = none ∧ ((pictured f i).link .left).state = .up ∧
      (pictured f i).inReset = false) ∧
    (∀ o < 270, o ≠ 5 →
      checkWord 7 (Mem.read frameDefault (pictured 40 none).frameStore.mem (frameAddr .left .s0 3 o)) = .clean) ∧
    (∃ y v, checkWord 7 (Mem.read frameDefault (pictured 8 none).frameStore.mem (frameAddr .left .s0 3 5)) = .corrected y v) ∧
    (∃ y, checkWord 7 (Mem.read frameDefault (pictured 40 none).frameStore.mem (frameAddr .left .s0 3 5)) = .uncorrectable y) ∧
    (∃ i, (pictured 0 (some { kind := .double, trigger := .address (frameAddr .left .s0 3 5), reads := 0 })).frameStore.injection =
      some i ∧ i.trigger = .address (frameAddr .left .s0 3 5)) ∧
    (23 : Fin 1300).val - 20 = 3 := by
  refine ⟨fun f i => ⟨rfl, rfl, rfl, rfl⟩, by decide +kernel, ⟨131, 0, by decide +kernel⟩, ⟨6, by decide +kernel⟩, ⟨_, rfl, rfl⟩,
    rfl⟩

/-! ### Links and the reverse channel -/

/-- The LEFT link in TRAINING, its condition set. -/
def training : State := (after up (.lossOfLock .left)).onLink .left (fun k => { k with state := .training })

theorem witness_LinkEventsFollowTheTable :
    (training.inReset = false ∧ (training.link .left).state = .training ∧ (training.link .left).linkCond = true) ∧
      (State.reset.link .left).state = .down ∧ (up.link .left).state = .up ∧ up.inReset = false ∧ State.reset.inReset = false := by
  decide +kernel

/-- The link that enters UP with its end to report, a record of its own side in force, and a record of the other side, which the routing
gives to the other link while that is UP. -/
theorem witness_LinkEventsFollowTheTable_rebuild :
    ((training.link .left).linkCond = true ∧ (training.faults.get (.side .displayLinkDown .left)).state ≠ .clear ∧
      (training.link .left).mask.getLsbD 8 = true) ∧
    (training.link Side.left.other).state = .up ∧ (State.reset.link Side.left.other).state ≠ .up := by decide +kernel

theorem witness_EnteringDownEmptiesTheLinkAndHandsOver :
    (up.inReset = false ∧ (up.link .left).state = .up ∧ (up.link .left).beenUp = true ∧ (up.link Side.left.other).state = .up) ∧
      ((training.link .left).state ≠ .down ∧ (training.link .left).state ≠ .up) ∧
      ((after State.reset (.trainingRequest .left)).link .left).beenUp = false ∧
      (((after up (.lossOfLock .left)).faults.get (.side .displayLinkDown .left)).state ≠ .clear ∧
        admits (up.link Side.left.other).mask (.side .displayLinkDown .left) = true) := by decide +kernel

theorem witness_StatusWordReachesTheComposer :
    (up.inReset = false ∧ (up.link .right).state = .up) ∧ (State.reset.inReset = false ∧ (State.reset.link .right).state ≠ .up) := by
  decide +kernel

theorem witness_DroppedAndUnknownPacketsTakeNoEffect :
    wordSum [0x0A01, 0x2345, 0x0001, 0x0000, 0xD2B8] ≠ 0 ∧
      (∀ kind, ([0x0B01, 0xF4FF] : List Word).head? = some kind → kind ≠ 0x0A01 ∧ kind ≠ 0x0A02) ∧
      wordSum [0x0B01, 0xF4FF] = 0 ∧ up.inReset = false ∧ up.Admits .left := by
  refine ⟨by decide, ?_, by decide, rfl, up_admits _⟩
  intro kind h
  cases h
  decide

theorem witness_ReceivingWhatWasSentGivesTheCommand :
    ((Instr.trim .right (pkt 2 0xFFEC 0)).wellFormed = true ∧
      (Instr.trim .right (pkt 2 0xFFEC 0)).reverseWords = some (.right, directiveWords 7 (pkt 2 0xFFEC 0))) ∧
    ((Instr.unknownDirective .left 255 (pkt 3 1 1)).wellFormed = true ∧
      (Instr.frameHistory .left (pkt 0 0xFFFF 0)).wellFormed = true ∧ (Instr.statusWord .left 0 0).wellFormed = true ∧
      (Instr.packetDropped .left []).wellFormed = true) := by decide +kernel

/-- A link with 8 entries in its reply queue. -/
def full : State :=
  up.onLink .left (fun k => { k with replies := List.replicate 8 (.ready { tag := 1, reason := none, data := [] }) })

theorem witness_DirectivesAreDiscardedOrRefusedBeforeTheirRule :
    (Instr.partState .left (pkt 0 9 0)).directivePacket = some (.left, pkt 0 9 0) ∧
      (State.reset.inReset = false ∧ (State.reset.link .left).state ≠ .up) ∧
      (full.inReset = false ∧ (full.link .left).state = .up ∧ 8 ≤ (full.link .left).replies.length) ∧
      (∀ code, Instr.partState .left { pkt 0 9 0 with length := 1 } ≠ .unknownDirective .left code { pkt 0 9 0 with length := 1 }) ∧
      up.Admits .left ∧ ({ pkt 0 9 0 with length := 1 } : Packet).length.toNat ≠ ({ pkt 0 9 0 with length := 1 } : Packet).args.length ∧
      32 < (pktArgs 0 2 0 (List.replicate 33 0)).length.toNat := by
  refine ⟨rfl, by decide +kernel, by decide +kernel, fun _ => Instr.noConfusion, up_admits _, by decide, by decide +kernel⟩

theorem witness_EveryAdmittedDirectiveTakesOnePlace :
    (Instr.trim .left (pkt 0 5 0)).directivePacket = some (.left, pkt 0 5 0) ∧ up.Admits .left ∧
      (up.onLink .left (fun k => { k with replies := List.replicate 7 (.reserved 1 .left) })).Admits .left := by
  refine ⟨rfl, up_admits _, ?_⟩
  unfold State.Admits
  decide +kernel

/-! ### Reading state -/

/-- A side with one frame record. -/
def oneRecord : State :=
  up.onSide .left (fun d =>
    { d with history :=
        [{ serial := 0, number := 4117, gap := true, arrival := 880000, temp := 25, cls := .normal,
           exposure := { total := 2779, integ := 1200, analog := 160, digital := 0 }, matched := true, bank := 0, slot := some .s1,
           metered := some (600, -439), glare := some (4, false), outcome := .shown }] })

/-- The record's words in the layout of R214: gap, matched, M and lit fields present; slot 1, SHOWN. -/
theorem test_frameHistory :
    lastReply (after oneRecord (.frameHistory .left (pkt 0 0 0))) .left =
      done [1, 4117, 0x000F, 25, 0x6D80, 13, 2779, 1200, 160, 0, 0x0101, 600, 0xFE49, 4] := by decide +kernel

theorem witness_FrameHistoryAndExposureStateReport :
    (up.Admits .left ∧ (pkt 0 0 8).Plain ∧ (pkt 0 0 8).s0 = 0 ∧ sideField (pkt 0 0 8).side = some .left ∧
      7 < (pkt 0 0 8).s1.toNat) ∧
    ((pkt 0 0 7).s1.toNat ≤ 7 ∧ (oneRecord.side .left).history.length ≤ (pkt 0 0 7).s1.toNat) ∧
    (oneRecord.Admits .left ∧ (pkt 0 0 0).s1.toNat ≤ 7 ∧ ∃ r, (oneRecord.side .left).history[(pkt 0 0 0).s1.toNat]? = some r) ∧
    ((pkt 1 3 0).s0 = 3 ∧ sideField (pkt 1 3 0).side = some .right) := by
  refine ⟨⟨up_admits _, pkt_plain .., by decide⟩, by decide +kernel, ⟨?_, by decide, _, rfl⟩, by decide⟩
  unfold State.Admits
  decide +kernel

theorem witness_FaultRecordReportsTheRecord :
    (up.Admits .left ∧ (pkt 0 1 24).Plain ∧ (pkt 0 1 24).s0 = 1 ∧ 23 < (pkt 0 1 24).s1.toNat) ∧
      (RecordId.part .errorCorrected).index = (pkt 0 1 23).s1.toNat ∧ (RecordId.side .sensorLoss .left).index = (pkt 0 1 0).s1.toNat ∧
      (RecordId.side .sensorLoss .right).index = (pkt 0 1 11).s1.toNat :=
  ⟨⟨up_admits _, pkt_plain .., by decide⟩, by decide⟩

theorem witness_ErrorLogReportsOneMemory :
    up.Admits .left ∧ (pkt 0 2 1).Plain ∧ (pkt 0 2 1).s0 = 2 ∧ ((pkt 0 2 0).s1 ≠ 1 ∧ (pkt 0 2 0).s1 ≠ 2) ∧
      ((pkt 0 2 3).s1 ≠ 1 ∧ (pkt 0 2 3).s1 ≠ 2) ∧ (pkt 0 2 1).s1 = 1 ∧ (pkt 0 2 2).s1 = 2 :=
  ⟨up_admits _, pkt_plain .., by decide⟩

theorem witness_GlareWindowAndSlotStateReport :
    (up.Admits .left ∧ (pkt 0 4 16).Plain ∧ (pkt 0 4 16).s0 = 4 ∧ sideField (pkt 0 4 16).side = some .left ∧
      15 < (pkt 0 4 16).s1.toNat) ∧
    ((pkt 0 4 15).s1.toNat ≤ 15 ∧ (∃ z, (up.side .left).glare.zones[12 * (pkt 0 4 15).s1.toNat + 11]? = some z) ∧
      (up.side .left).glare.handed = none) ∧
    (∃ a, (handedSet romGlareAtt (up.side .left).glare.zones)[12 * (pkt 0 4 15).s1.toNat + 11]? = some a) ∧
    (pkt 0 5 0).s0 = 5 ∧ (pkt 0 6 0).s0 = 6 := by
  refine ⟨⟨up_admits _, pkt_plain .., by decide⟩, ⟨by decide, ⟨{ level := 0, hold := 0 }, by decide +kernel⟩, rfl⟩,
    ⟨0, by decide +kernel⟩, by decide⟩

theorem witness_TableAndPartStateReport :
    up.Admits .left ∧ (pkt 1 7 0).Plain ∧ (pkt 1 7 0).s0 = 7 ∧ sideField (pkt 1 7 0).side = some .right ∧ (pkt 0 9 0).s0 = 9 :=
  ⟨up_admits _, pkt_plain .., by decide⟩

/-- The defect site of chapter 3, stored as the first entry of the LEFT list. -/
def oneDefect : State :=
  (up.writeTableWords 2048 [0x0280, 0x832C]).onSide .left (fun d => { d with tables := { d.tables with defectCount := 1 } })

theorem test_defectEntry : lastReply (after oneDefect (.defectEntry .left (pkt 0 8 0))) .left = done [1, 640, 812, 2, 1] := by
  decide +kernel

theorem witness_DefectEntryReportsTheEntry :
    (up.Admits .left ∧ (pkt 0 8 4096).Plain ∧ (pkt 0 8 4096).s0 = 8 ∧ sideField (pkt 0 8 4096).side = some .left ∧
      4095 < (pkt 0 8 4096).s1.toNat) ∧
    ((pkt 0 8 4095).s1.toNat ≤ 4095 ∧ (up.side .left).tables.defectCount ≤ (pkt 0 8 4095).s1.toNat) ∧
    (oneDefect.Admits .left ∧ (pkt 0 8 0).s1.toNat < (oneDefect.side .left).tables.defectCount ∧
      oneDefect.tableStore.injection = none ∧ poolAddr .left oneDefect.tableStore.leftShare (pkt 0 8 0).s1.toNat = 2048 ∧
      Mem.read tableDefault oneDefect.tableStore.mem 2048 = encodeWord 22 0x0280#16 ∧
      Mem.read tableDefault oneDefect.tableStore.mem 2049 = encodeWord 22 0x832C#16) := by
  refine ⟨⟨up_admits _, pkt_plain .., by decide⟩, by decide +kernel, ?_, by decide +kernel⟩
  unfold State.Admits
  decide +kernel

/-- The LEFT list's one entry with bits of its words flipped, and an injection. -/
def badDefect (f0 f1 : BitVec 22) (injection : Option Injection) : State :=
  { oneDefect with tableStore := { oneDefect.tableStore with
      mem := [(2048, encodeWord 22 0x0280#16 ^^^ f0), (2049, encodeWord 22 0x832C#16 ^^^ f1)], injection := injection } }

/-- One flip is corrected and two are not, stored or injected: on the address, at the count, and at a later count. -/
theorem witness_DefectEntryReportsTheEntry_errors :
    ((badDefect 8 40 none).Admits .left ∧ 0 < ((badDefect 8 40 none).side .left).tables.defectCount ∧
      (badDefect 8 40 none).TableReads 2048 (encodeWord 22 0x0280#16 ^^^ 8) none ∧
      (badDefect 8 40 none).TableReads 2049 (encodeWord 22 0x832C#16 ^^^ 40) none) ∧
    (checkWord 5 (encodeWord 22 0x0280#16 ^^^ 8) = .corrected 35 (encodeWord 22 0x0280#16) ∧
      checkWord 5 (encodeWord 22 0x832C#16 ^^^ 40) = .uncorrectable 6) ∧
    (badDefect 0 0 (some { kind := .single, trigger := .address 2048, reads := 0 })).TableReads 2048
      (encodeWord 22 0x0280#16 ^^^ 8) none ∧
    (badDefect 0 0 (some { kind := .double, trigger := .address 2049, reads := 0 })).TableReads 2048 (encodeWord 22 0x0280#16)
      (some { kind := .double, trigger := .address 2049, reads := 0 }) ∧
    (badDefect 0 0 (some { kind := .double, trigger := .count 2, reads := 1 })).TableReads 2049
      (encodeWord 22 0x832C#16 ^^^ 40) none ∧
    (badDefect 0 0 (some { kind := .double, trigger := .count 2, reads := 0 })).TableReads 2048 (encodeWord 22 0x0280#16)
      (some { kind := .double, trigger := .count 2, reads := 1 }) := by
  refine ⟨⟨?_, by decide +kernel, .inl ⟨rfl, by decide +kernel, rfl⟩, .inl ⟨rfl, by decide +kernel, rfl⟩⟩, by decide +kernel,
    .inr ⟨_, rfl, .inl ⟨.inl rfl, by decide +kernel, rfl⟩⟩,
    .inr ⟨_, rfl, .inr (.inl ⟨⟨2049, rfl, by decide⟩, by decide +kernel, rfl⟩)⟩,
    .inr ⟨_, rfl, .inl ⟨.inr rfl, by decide +kernel, rfl⟩⟩,
    .inr ⟨_, rfl, .inr (.inr ⟨⟨2, rfl, by decide⟩, by decide +kernel, rfl⟩)⟩⟩
  unfold State.Admits
  decide +kernel

/-! ### Table store -/

/-- The LADDER shadow poisoned at word 5, the last word that `loadLadder` writes. -/
def badShadow (j : Nat) : State :=
  up.onSide .left (fun d => { d with tables := { d.tables with ctl := d.tables.ctl.set .ladder { TableCtl.reset with bad1 := some j } } })

theorem badShadow_admits (j : Nat) : (badShadow j).Admits .left := ⟨rfl, rfl, by show 0 < 8; decide⟩

/-- LADDER has 6 words: two at offset 4 reach its end. A PAN table is kept by its lock, and one named by a pending commit waits. -/
theorem witness_LoadTableWritesTheShadowAlone :
    ((badShadow 5).Admits .left ∧ loadLadder.Sized ∧ sideField loadLadder.side = some .left ∧
      tableField (loadLadder.s0.extractLsb' 0 4).toNat (loadLadder.s0.extractLsb' 8 2).toNat = some .ladder ∧
      (loadLadder.s1.extractLsb' 0 8).toNat = 4 ∧ (loadLadder.s1.extractLsb' 8 8).toNat = 2 ∧ loadLadder.args.length = 2 ∧
      4 + 2 ≤ TableId.ladder.words ∧ (badShadow 5).locks.covers .ladder = false ∧
      ((badShadow 5).side .left).tables.commitNames .ladder = false) ∧
    (((badShadow 5).side .left).tables.ctl.ladder.bad .bank1 = some 5 ∧
      ((badShadow 3).side .left).tables.ctl.ladder.bad .bank1 = some 3) ∧
    ({ up with locks := { up.locks with pan := true } }.locks.covers .pan = true) ∧
    ((up.onSide .left (fun d => { d with tables := { d.tables with commit := some { tables := 0x0100, link := none } } })).side
      .left).tables.commitNames .ladder = true := by
  refine ⟨⟨badShadow_admits 5, ⟨by decide, by decide⟩, ?_⟩, ?_⟩ <;> decide +kernel

/-- A LEFT side whose LADDER shadow is loaded with `w` as its dwell. -/
def ladderLoaded (s : State) (w : Word) : State := after s (.loadTable .left (pktArgs 0 0x0002 0x0104 [w]))

theorem ladderLoaded_admits : (ladderLoaded up 40).Admits .left := by
  unfold State.Admits
  decide +kernel

/-- The verdict of a validation. -/
def verdict (s : State) : Verdict := (State.validate .left [.ladder] s).1

theorem witness_CommitIsAnsweredByItsValidation :
    ((ladderLoaded up 40).Admits .left ∧ (pkt 0 0x0100 0).Plain ∧ sideField (pkt 0 0x0100 0).side = some .left ∧
      0 < (pkt 0 0x0100 0).s0.toNat ∧ (pkt 0 0x1FFF 0).s0.toNat < 8192 ∧
      TableId.all.filter (fun tb => (pkt 0 0x0100 0).s0.getLsbD tb.num) = [.ladder] ∧
      (∀ tb ∈ [TableId.ladder], (ladderLoaded up 40).locks.covers tb = false) ∧
      ((ladderLoaded up 40).side .left).tables.commit = none ∧
      ∀ tb ∈ [TableId.ladder], (((ladderLoaded up 40).side .left).tables.ctl.get tb).shadow = .loaded ∧
        (((ladderLoaded up 40).side .left).tables.ctl.get tb).bad
          (((ladderLoaded up 40).side .left).tables.ctl.get tb).active.other = none) ∧
    (verdict (ladderLoaded up 40) = .pass ∧ ((ladderLoaded up 40).side .left).port.state ≠ .running) ∧
    (verdict (ladderLoaded (inLines 0) 40) = .pass ∧ ((ladderLoaded (inLines 0) 40).side .left).port.state = .running) ∧
    verdict (ladderLoaded up 0) = .badContent .ladder 4 ∧
    verdict { ladderLoaded up 40 with tableStore := { (ladderLoaded up 40).tableStore with
      injection := some { kind := .double, trigger := .count 1, reads := 0 } } } = .tableError .ladder 0 := by
  refine ⟨⟨ladderLoaded_admits, pkt_plain .., ?_⟩, ?_⟩ <;> decide +kernel

/-- The words of the LADDER shadow with `w` as its dwell. -/
def ladderWords (w : Word) : List Word := (romTable .left .ladder).set 4 w

/-- The stored words of the shadow for a dwell of 40 and of 0, each at its address; with 40 the rules hold, with 0 the third fails and
names word 4. A word that reads with one flip is corrected, with two it is uncorrectable. -/
theorem witness_CommitIsAnsweredByItsValidation_reads :
    ((ladderLoaded up 40).tableStore.injection = none ∧ (ladderWords 40).length = TableId.ladder.words ∧
      ∀ j < 6, Mem.read tableDefault (ladderLoaded up 40).tableStore.mem (tableAddr .left .ladder .bank1 j) =
        encodeWord 22 ((ladderWords 40).getD j 0)) ∧
    ((∀ q ∈ TableKind.ladder.rules (ladderWords 40), q.2) ∧
      ∃ pre q, TableKind.ladder.rules (ladderWords 0) = pre ++ [q] ∧ q.1 = 4 ∧ (∀ o ∈ pre, o.2) ∧ ¬ q.2) ∧
    (checkWord 5 (encodeWord 22 40#16 ^^^ 8) = .corrected 35 (encodeWord 22 40#16) ∧
      (ladderWords 40)[4]? = some (dataOf 16 (encodeWord 22 40#16)) ∧
      ∃ y, checkWord 5 (encodeWord 22 40#16 ^^^ 40) = .uncorrectable y) ∧
    5 < TableId.ladder.words := by
  refine ⟨by decide +kernel, ⟨?_, [_, _], _, rfl, rfl, ?_, ?_⟩, ⟨by decide +kernel, by decide +kernel, 6, by decide +kernel⟩,
    by decide +kernel⟩
  · intro q h
    simp only [TableKind.rules, List.mem_cons, List.not_mem_nil, or_false] at h
    rcases h with rfl | rfl | rfl <;> decide +kernel
  · intro q h
    simp only [List.mem_cons, List.not_mem_nil, or_false] at h
    rcases h with rfl | rfl <;> decide +kernel
  · decide +kernel

theorem witness_CommitIsRefusedInItsOrder :
    (up.Admits .left ∧ (pkt 0 0 0).Plain ∧ sideField (pkt 0 0 0).side = some .left ∧ (pkt 0 0 0).s0 = 0 ∧
      8192 ≤ (pkt 0 0x2000 0).s0.toNat) ∧
    ({ up with locks := { up.locks with pan := true } }.locks.covers .pan = true ∧
      TableId.pan ∈ TableId.all.filter (fun tb => (pkt 0 0x0400 0).s0.getLsbD tb.num)) ∧
    ((up.onSide .left (fun d => { d with tables := { d.tables with commit := some { tables := 1, link := none } } })).side
      .left).tables.commit ≠ none ∧
    ((up.side .left).tables.commit = none ∧ ((up.side .left).tables.ctl.get .tone0).shadow = .stale ∧
      ∀ u ∈ TableId.all.filter (fun tb => (pkt 0 0x0001 0).s0.getLsbD tb.num), ¬ u.num < TableId.tone0.num) ∧
    (let s := (badShadow 3).onSide .left (fun d => { d with tables := { d.tables with
        ctl := d.tables.ctl.set .ladder { TableCtl.reset with bad1 := some 3, shadow := .loaded } } })
     ∀ u ∈ TableId.all.filter (fun tb => (pkt 0 0x0100 0).s0.getLsbD tb.num),
       ((s.side .left).tables.ctl.get u).shadow = .loaded ∧
       ((s.side .left).tables.ctl.get u).bad ((s.side .left).tables.ctl.get u).active.other = some 3) := by
  refine ⟨⟨up_admits _, pkt_plain .., by decide⟩, ?_⟩
  decide +kernel

/-- One site, the last of the sensor. -/
def lastSite : Packet := pktArgs 0 1 0 [2559, 1919]

/-- Sixteen sites. -/
def sixteen : Packet := pktArgs 2 16 0 (List.replicate 32 1)

theorem witness_DefectAddAppendsTheAcceptedSites :
    (up.Admits .left ∧ lastSite.Sized ∧ sidesField lastSite.side = some [.left] ∧ 1 ≤ lastSite.s0.toNat ∧
      lastSite.args.length = 2 * lastSite.s0.toNat ∧ ∀ e ∈ sitesOf lastSite.args, e.cls ≠ 3) ∧
    (sixteen.Sized ∧ sidesField sixteen.side = some [.left, .right] ∧ sixteen.s0.toNat ≤ 16 ∧
      sixteen.args.length = 2 * sixteen.s0.toNat ∧ ∀ e ∈ sitesOf sixteen.args, e.cls ≠ 3) ∧
    ({ up with locks := { up.locks with defects := true } }.locks.defects = true ∧ up.locks.defects = false) ∧
    (sitesOf lastSite.args = [{ row := 2559, col := 1919, cls := 0 }] ∧ (up.side .left).tables.defectCount = 0 ∧
      (up.side .left).tables.defectLoss = false ∧ (up.side .left).dev.edits = [] ∧ 0 < up.shareOf .left) := by
  refine ⟨⟨up_admits _, ⟨by decide, by decide⟩, ?_⟩, ⟨⟨by decide +kernel, by decide +kernel⟩, ?_⟩, ?_, ?_⟩ <;> decide +kernel

/-- A LEFT side with that site as a pending ADD. -/
def addedLast : State := up.onSide .left (fun d => { d with dev := { d.dev with edits := [.add 2559 1919 0] } })

/-- REMOVE of a site that a pending ADD has put on the projected list is accepted (R168). -/
theorem test_defectRemove_projected :
    lastReply (after addedLast (.defectRemove .left lastSite)) .left = done [1, 0, 0] := by decide +kernel

theorem witness_DefectRemoveAppendsTheAcceptedSites :
    (up.Admits .left ∧ lastSite.Sized ∧ sidesField lastSite.side = some [.left] ∧ 1 ≤ lastSite.s0.toNat ∧
      lastSite.args.length = 2 * lastSite.s0.toNat) ∧
    (sixteen.Sized ∧ sixteen.s0.toNat ≤ 16) ∧
    ({ up with locks := { up.locks with defects := true } }.locks.defects = true ∧ up.locks.defects = false) ∧
    ((up.side .left).tables.defectCount = 0 ∧ (up.side .left).tables.defectLoss = false ∧ (up.side .left).dev.edits = []) ∧
    (addedLast.Admits .left ∧ addedLast.locks.defects = false ∧ (addedLast.side .left).tables.defectCount = 0 ∧
      (addedLast.side .left).tables.defectLoss = false ∧
      ∃ e, sitesOf lastSite.args = [e] ∧ e.row = 2559 ∧ e.col = 1919 ∧
        (addedLast.side .left).dev.edits = [.add e.row e.col 0]) := by
  refine ⟨⟨up_admits _, ⟨by decide, by decide⟩, ?_⟩, ⟨⟨by decide +kernel, by decide +kernel⟩, ?_⟩, ?_, ?_, ?_, ?_, ?_, ?_,
    ⟨_, rfl, by decide, by decide, by decide +kernel⟩⟩
  case refine_5 => unfold State.Admits; decide +kernel
  all_goals decide +kernel

/-- For DEFECT_ADD and DEFECT_REMOVE, a list that stands without error: its one site is on it; 64 edits leave no
room, 63 do; a lost entry with TABLE_POISONED that only it keeps. -/
theorem witness_DefectAddAppendsTheAcceptedSites_list :
    oneDefect.StoresList .left [{ row := 640, col := 812, cls := 2 }] ∧
    (oneDefect.locks.defects = false ∧ (oneDefect.side .left).dev.edits = [] ∧
      applyEdits [{ row := 640, col := 812, cls := 2 }] [] = [{ row := 640, col := 812, cls := 2 }]) ∧
    ((List.replicate 64 (DefectEdit.add 1 1 0)).length = 64 ∧ (List.replicate 63 (DefectEdit.add 1 1 0)).length < 64) ∧
    (let d := (oneDefect.onSide .left (fun d => { d with tables := { d.tables with defectLoss := true, poisonCond := true } })).side .left
     d.tables.defectLoss = true ∧ d.tables.poisonCond = true ∧
       ∀ tb, (d.tables.ctl.get tb).bad (d.tables.ctl.get tb).active = none) ∧
    (sitesOf (pktArgs 0 1 0 [0x0280, 0x032C]).args = [{ row := 640, col := 812, cls := 0 }]) := by
  refine ⟨⟨rfl, rfl, fun i e h => ?_⟩, by decide +kernel, by decide +kernel, ⟨rfl, rfl, fun tb => ?_⟩, by decide +kernel⟩
  · match i with
    | 0 => cases h; decide +kernel
    | i + 1 => cases h
  · cases tb <;> rfl

/-- A pending edit on the RIGHT side. -/
def edited : State := up.onSide .right (fun d => { d with dev := { d.dev with edits := [.remove 1 2] } })

/-- A pending commit of LAYOUT on the RIGHT side. -/
def layoutPending : State :=
  up.onSide .right (fun d => { d with tables := { d.tables with commit := some { tables := 0x0800, link := none } } })

theorem witness_DefectSplitAndLockFollowTheirChecks :
    (up.Admits .left ∧ (pkt 0 255 0).Plain) ∧
    ((pkt 0 255 0).s0.toNat % 256 ≠ 0 ∧ 4096 < (pkt 0 4352 0).s0.toNat ∧ (pkt 0 4096 0).s0.toNat % 256 = 0 ∧
      (pkt 0 4096 0).s0.toNat ≤ 4096) ∧
    (∃ x, (edited.side x).tables.defectCount ≠ 0 ∨ (edited.side x).dev.edits ≠ []) ∧
    (∀ x, (up.side x).tables.defectCount = 0 ∧ (up.side x).dev.edits = []) ∧
    (3 < (pkt 0 4 0).s0.toNat ∧ (pkt 0 3 0).s0 = 3) ∧
    (∃ x, (layoutPending.side x).tables.commitNames .layout = true) ∧
    (∀ x, (up.side x).tables.commitNames .layout = false) :=
  ⟨⟨up_admits _, pkt_plain ..⟩, by decide, ⟨.right, .inr (by decide)⟩, fun x => by cases x <;> exact ⟨rfl, rfl⟩, by decide,
    ⟨.right, by decide +kernel⟩, fun x => by cases x <;> rfl⟩

/-! ### Settings of a side -/

theorem witness_SetProfileModeSchedulesABank :
    up.Admits .left ∧ (pkt 2 1 4).Plain ∧ sidesField (pkt 2 1 4).side = some [.left, .right] ∧
      ((pkt 2 1 4).s0 = 1 ∧ 3 < (pkt 2 1 4).s1.toNat) ∧ (3 : Bank).val = (pkt 2 1 3).s1.toNat ∧ (pkt 2 0 0).s0 = 0 :=
  ⟨up_admits _, pkt_plain .., by decide⟩

theorem witness_AimTrimAndOutputModeReplaceTheirValues :
    up.Admits .left ∧ (pkt 1 2 0).Plain ∧ sidesField (pkt 1 2 0).side = some [.right] ∧
      OutputMode.service.code = (pkt 1 2 0).s0.toNat ∧ 2 < (pkt 1 3 0).s0.toNat :=
  ⟨up_admits _, pkt_plain .., by decide⟩

theorem witness_ArticulationRenewsTheRecord :
    (stale.Admits .left ∧ (pkt 3 300 0).Plain ∧ stale.artic.stale = true) ∧ (quiet.Admits .left ∧ quiet.artic.stale = false) := by
  refine ⟨⟨?_, pkt_plain .., ?_⟩, ?_, ?_⟩ <;> (try unfold State.Admits) <;> decide +kernel

/-- A bus whose buffer holds `n` service writes. -/
def buffered (n : Nat) : State :=
  busy.onSide .right (fun d => { d with bus := { d.bus with
    buffer := List.replicate n { register := 1, value := 2, origin := .service, group := 3, sent := true } } })

theorem witness_SensorWriteQueuesAServiceWrite :
    (up.Admits .left ∧ (pkt 2 1 2).Plain ∧ sidesField (pkt 2 1 2).side = some [.left, .right]) ∧
    (∃ x ∈ [Side.left, .right], 16 ≤ ((buffered 16).side x).bus.buffer.length) ∧
    (∀ x ∈ [Side.left, .right], ((buffered 15).side x).bus.buffer.length < 16) ∧
    (((buffered 15).side .right).bus.state = .sending ∧ ((buffered 15).side .left).bus.state = .idle ∧
      ((buffered 15).side .left).bus.buffer = []) := by
  refine ⟨⟨up_admits _, pkt_plain .., by decide⟩, ?_, ?_, ?_⟩ <;> decide +kernel

theorem witness_RestartSideRestartsEveryBlock :
    (busy.Admits .left ∧ (pkt 2 0 0).Plain ∧ sidesField (pkt 2 0 0).side = some [.left, .right]) ∧
    ((busy.side .left).bus.state = .idle ∧ (busy.side .right).bus.state = .sending ∧ (busy.side .left).dev.edits = []) ∧
    ((busy.link .left).state = .up ∧ (training.link .left).state ≠ .up ∧ (training.link .left).beenUp = true) ∧
    sidesField (pkt 0 0 0).side = some [.left] := by
  refine ⟨⟨?_, pkt_plain .., by decide⟩, ?_, ?_, ?_⟩ <;> (try unfold State.Admits) <;> decide +kernel

/-! ### Fault table, error logs and protection -/

theorem witness_ReportsChangeARecordByItsState :
    (up.faults.get (.side .viewLost .left)).state = .clear ∧ (stale.faults.get (.part .panInputStale)).state ≠ .clear ∧
      ((up.link .left).mask.getLsbD (RecordId.side .viewLost .left).classCode = true ∧ (up.link .left).state = .up) ∧
      ((State.reset.link .left).state ≠ .up) := by decide +kernel

theorem witness_AckFaultAndNoticeMaskActOnTheirTargets :
    (stale.Admits .left ∧ (pkt 3 11 0).Plain ∧ (pkt 3 11 0).s0.toNat = (RecordId.part .panInputStale).classCode ∧
      (stale.faults.get (.part .panInputStale)).state = .active) ∧
    ((pkt 1 10 0).s0.toNat = (RecordId.side .frameStoreError .right).classCode ∧
      (∀ c x, RecordId.side .frameStoreError .right = .side c x → sideField (pkt 1 10 0).side = some x) ∧
      (up.faults.get (.side .frameStoreError .right)).state ≠ .active) ∧
    (sidesField (pkt 2 0x1FFF 0).side = some [.left, .right] ∧ (pkt 2 0x1FFF 0).s0.toNat < 8192 ∧
      8192 ≤ (pkt 2 0x2000 0).s0.toNat) := by
  refine ⟨⟨?_, pkt_plain .., by decide +kernel⟩, ⟨by decide, ?_, by decide +kernel⟩, by decide⟩
  · unfold State.Admits; decide +kernel
  · intro c x h
    cases h
    decide

/-- SINGLE with an ADDRESS, and DOUBLE with a COUNT, at the last values allowed and the first refused. -/
theorem witness_ErrorLogsClearAndInjectionsArm :
    (up.Admits .left ∧ (pkt 0 0 0).Plain ∧ (pkt 0 0 0).s0 = 0 ∧ 3 < (pkt 0 4 0).s0.toNat ∧ 1 ≤ (pkt 0 1 0).s0.toNat ∧
      (pkt 0 3 0).s0.toNat ≤ 3) ∧
    ((pktArgs 0 0x0111 0 [41983, 31]).Sized ∧ (pktArgs 0 0x0111 0 [41983, 31]).s0.extractLsb' 4 2 = 1 ∧
      (pktArgs 0 0x0111 0 [41983, 31]).s0.extractLsb' 8 2 = 1 ∧ (pktArgs 0 0x0111 0 [41983, 31]).s0.extractLsb' 0 2 = 1 ∧
      (41983#16).toNat + 65536 * (31#16).toNat = 2073599 ∧ 2073599 < 2073600) ∧
    ((pktArgs 0 0x0222 0 [65535, 0]).Sized ∧ (pktArgs 0 0x0222 0 [65535, 0]).s0.extractLsb' 4 2 = 2 ∧
      (pktArgs 0 0x0222 0 [65535, 0]).s0.extractLsb' 8 2 = 2 ∧ (pktArgs 0 0x0222 0 [65535, 0]).s0.extractLsb' 0 2 = 2 ∧
      (65535#16).toNat + 65536 * (0#16).toNat = 65535) ∧
    ((0#16).toNat + 65536 * (1#16).toNat = 65536 ∧ 65535 < 65536 ∧ (10240#16).toNat + 65536 * (0#16).toNat = 10240) := by
  refine ⟨⟨up_admits _, pkt_plain .., by decide⟩, ⟨⟨by decide, by decide⟩, by decide⟩, ⟨⟨by decide, by decide⟩, by decide⟩, by decide⟩

/-! ## Witnesses on tables and lists that are read, and over all steps -/

/-- A record that keeps R27: 2619 + 160 = 2779. -/
def recordA : ExpRecord := { total := 2779, integ := 1200, analog := 160, digital := 0 }

/-- A group acknowledged with F_cur 503 and N_lat 2; entries for 504 and for 506, the last target allowed, stand in the queue. -/
def joining : State :=
  { (lastOfGroup 1).onSide .right (fun d => { d with exposure := { d.exposure with
      pendingQueue := [{ target := 504, record := recordA }, { target := 506, record := recordA }] } }) with
    pending := [.sensorBusResponse .right ⟨0, true⟩] }

theorem joining_steps : ∃ t, step joining = .next t := ⟨_, rfl⟩

theorem joining_tables : joining.TablesLawful :=
  joining.tablesLawful_rom (fun _ _ => rfl) (fun a _ _ => tableDefault_clean a) (fun x => by cases x <;> rfl)

theorem witness_EveryStepKeepsTheQueueBounds_pending : joining.TablesLawful ∧ ∀ x, (joining.side x).PendingLawful := by
  refine ⟨joining_tables, fun x => ?_⟩
  cases x
  · exact ⟨.nil, fun q h => by cases h⟩
  · refine ⟨by decide +kernel, fun q h => ?_⟩
    have h : q ∈ [_, _] := h
    simp only [List.mem_cons, List.not_mem_nil, or_false] at h
    rcases h with rfl | rfl <;> exact ⟨503, rfl, by decide, by decide⟩

/-- The list of `startReady` stands in the pool and nothing else is stored. -/
theorem startReady_reads (temp : Sample) (hot : Bool) (a : Nat) :
    Mem.read tableDefault (startReady temp hot).tableStore.mem a =
      if a = 2048 then encodeWord 22 0x0280#16 else if a = 2049 then encodeWord 22 0x832C#16 else tableDefault a := by
  show Mem.read tableDefault (Mem.writeBlock tableDefault [] 2048 [encodeWord 22 0x0280#16, encodeWord 22 0x832C#16]) a = _
  by_cases h : 2048 ≤ a ∧ a < 2050
  · obtain rfl | rfl : a = 2048 ∨ a = 2049 := by omega
    · exact Mem.read_writeBlock_in [] 2048 _ 0 (by decide)
    · exact Mem.read_writeBlock_in [] 2048 _ 1 (by decide)
  · rw [Mem.read_writeBlock_out _ _ _ _ (by simp only [List.length_cons, List.length_nil]; omega),
      if_neg (by omega), if_neg (by omega)]
    rfl

theorem startReady_tables (temp : Sample) (hot : Bool) : (startReady temp hot).TablesLawful := by
  refine State.tablesLawful_rom _ (fun a h => ?_) (fun a _ _ => ?_) (fun x => by cases x <;> rfl)
  · rw [startReady_reads, if_neg (by omega), if_neg (by omega)]
  · rw [startReady_reads]
    split
    · decide +kernel
    split
    · decide +kernel
    · exact tableDefault_clean a

theorem startReady_list (temp : Sample) (hot : Bool) :
    (startReady temp hot).HoldsList .left [{ row := 640, col := 812, cls := 2 }] := by
  refine ⟨rfl, fun i e h => ?_⟩
  match i with
  | 0 =>
    cases h
    exact ⟨by decide, by decide, (startReady_reads ..).trans (if_pos rfl),
      (startReady_reads ..).trans ((if_neg (show ¬ 2049 = 2048 by decide)).trans (if_pos rfl))⟩
  | i + 1 => cases h

/-- A frame start with a record in force, a pending commit and a pending edit; the edit's site is the last of the sensor. -/
theorem witness_EveryStepKeepsTheRanges_records :
    (∀ x, ((startReady 105 false).side x).RecordsLawful) ∧ (∀ x, (joining.side x).RecordsLawful) ∧
      (startReady 105 false).TablesLawful ∧ (startReady 105 false).PoolLawful := by
  refine ⟨fun x r h => ?_, fun x r h => ?_, startReady_tables .., by decide, fun x => ?_⟩
  · cases x
    · have h : r ∈ [_] := h
      rw [List.mem_singleton] at h; subst h; decide +kernel
    · cases h
  · cases x
    · cases h
    · have h : r ∈ [_, _, _] := h
      simp only [List.mem_cons, List.not_mem_nil, or_false] at h
      rcases h with rfl | rfl | rfl <;> decide +kernel
  · cases x
    · refine ⟨fun e h => ?_, _, startReady_list .., .cons (fun _ h => by cases h) .nil, fun e h => ?_, by decide, by decide⟩
      · have h : e ∈ [DefectEdit.add 2559 1919 0] := h
        rw [List.mem_singleton] at h; subst h
        show (2559 ≤ 2559 ∧ 1919 ≤ 1919) ∧ (0 : BitVec 2) ≠ 3
        decide
      · rw [List.mem_singleton] at h; subst h
        show (640 ≤ 2559 ∧ 812 ≤ 1919) ∧ (2 : BitVec 2) ≠ 3
        decide
    · exact ⟨fun e h => (by cases h), [], ⟨rfl, fun _ _ h => (by cases h)⟩, .nil, fun _ h => (by cases h), by decide, by decide⟩

theorem startReady_steps :
    ∃ t, step { startReady 105 false with pending := [.line .left (List.replicate 1920 0)] } = .next t := ⟨_, rfl⟩

/-- Every zone at the limits of its level and its hold count before a good frame end. -/
theorem witness_EveryStepKeepsTheRanges_glare :
    let s := (framed 2560).onSide .left (fun d => { d with glare :=
      { d.glare with zones := List.replicate 192 { level := 15, hold := 255 } } })
    s.TablesLawful ∧ (∀ x, (s.side x).glare.Lawful) ∧ ∃ t, step { s with pending := [.frameEndMarker .left] } = .next t := by
  refine ⟨State.tablesLawful_rom _ (fun _ _ => rfl) (fun a _ _ => tableDefault_clean a) (fun x => by cases x <;> rfl),
    fun x z h => ?_, _, rfl⟩
  cases x
  · rw [List.eq_of_mem_replicate h]; decide
  · rw [List.eq_of_mem_replicate (show z ∈ List.replicate 192 { level := 0, hold := 0 } from h)]; decide

/-! ### Malformed frames, matching and lists that lose an entry -/

/-- While SENSOR_FRAME is in force the first malformed frame after a good one sets it again with its own detail, here by a begin marker
and by an early frame end (R10); a third in a row sets it. -/
theorem witness_FrameBeginMarkerOpensAFrame_report :
    (let t := after (inStatus.onSide .left (fun d => { d with port := { d.port with frameCond := true } })) (.frameBeginMarker .left)
     (t.side .left).port.badCount = 1 ∧ (t.faults.get (.side .sensorFrame .left)).detail = 1) ∧
    (let t := after (inStatus.onSide .left (fun d => { d with port := { d.port with badCount := 2 } })) (.frameBeginMarker .left)
     (t.side .left).port.frameCond = true ∧ (t.faults.get (.side .sensorFrame .left)).state = .active) ∧
    (let t := after ((inLines 1800).onSide .left (fun d => { d with port := { d.port with frameCond := true } })) (.frameEndMarker .left)
     (t.side .left).port.badCount = 1 ∧ (t.faults.get (.side .sensorFrame .left)).detail = 1802) := by decide +kernel

/-- Under a limit of 1000 the record in force says 1200, and so does the camera: a mismatch, rebuilt at the limit (R30, R43). -/
theorem test_match_beyond_limit :
    let e : Exposure := { Exposure.reset with inForce := some recordA }
    let l : Limits := limitsOf (readProfile (romProfile 0)) (readSensor romSensor)
    (e.matchFrame l 1200 5).1 = .matched ∧ (e.matchFrame { l with imaxEff := 1000 } 1200 5).1 = .mismatched ∧
      (e.matchFrame { l with imaxEff := 1000 } 1200 5).2.inForce.map ExpRecord.integ = some 1000 := by decide +kernel

/-- Three entries, of which the second reads uncorrectable and the third is stored with a single-bit error in its row word. -/
def threeDefects : State :=
  { up.onSide .left (fun d => { d with tables := { d.tables with defectCount := 3 } }) with
    tableStore := { up.tableStore with
      mem := Mem.writeBlock tableDefault [] 2048 [encodeWord 22 0x0280#16, encodeWord 22 0x832C#16, encodeWord 22 0x0009#16,
        encodeWord 22 0x0008#16 ^^^ 40, encodeWord 22 0x0A00#16 ^^^ 8, encodeWord 22 0x4003#16] } }

/-- DEFECT_ENTRY of the second is TABLE_ERROR; the third moves into its place with correct check bits (R169, R170). -/
theorem witness_DefectEntryReportsTheEntry_moves :
    threeDefects.Admits .left ∧ (1 < 3 ∧ (2 : Nat) ≠ (pkt 0 8 1).s1.toNat) ∧
    (delivered 5 16 (Mem.read tableDefault threeDefects.tableStore.mem 2052) : Option Word) = some 0x0A00 ∧
    (let t := after threeDefects (.defectEntry .left (pkt 0 8 1))
     lastReply t .left = refused .tableError [1] ∧ (t.side .left).tables.defectCount = 2 ∧
       Mem.read tableDefault t.tableStore.mem 2048 = encodeWord 22 0x0280#16 ∧
       Mem.read tableDefault t.tableStore.mem 2050 = encodeWord 22 0x0A00#16 ∧
       Mem.read tableDefault t.tableStore.mem 2051 = encodeWord 22 0x4003#16) := by
  refine ⟨?_, by decide, ?_⟩
  · unfold State.Admits; decide +kernel
  · decide +kernel

/-! ### The frame start's reads -/

/-- The side of `startReady` with no bank poisoned: its commit, its TABLE_POISONED condition and an injection given. -/
def readable (commit : Option PendingCommit) (cond : Bool) (injection : Option Injection) : State :=
  let s := (startReady 105 false).onSide .left (fun d =>
    { d with tables := { d.tables with ctl := PerTable.ofFn (fun _ => TableCtl.reset), commit := commit, poisonCond := cond } })
  { s with tableStore := { s.tableStore with injection := injection } }

theorem readable_rom (commit : Option PendingCommit) (cond : Bool) (injection : Option Injection) (a : Nat) (h : a < 2048) :
    Mem.read tableDefault (readable commit cond injection).tableStore.mem a = tableDefault a :=
  (startReady_reads 105 false a).trans ((if_neg (by omega)).trans (if_neg (by omega)))

/-- Every word of every bank reads as its ROM default, no bank fails and no entry is lost; the condition and the commit are free, and
with the bank of tone0 in force poisoned the side is not healed before a swap. -/
theorem witness_SecondStatusLineTakesTheFrameStart_clean (commit : Option PendingCommit) (cond : Bool) :
    let s := readable commit cond none
    s.inReset = false ∧ (s.side .left).port.phase = .status ∧ (s.side .left).port.lineCount = 1 ∧ s.NoCountTrigger ∧
    (∀ tb p, ((s.side .left).tables.ctl.get tb).bad p = none ∧
      ∀ j w, (romTable .left tb)[j]? = some w → s.dataAt (tableAddr .left tb p j) = some w) ∧
    (∀ tb p j, ¬ s.BankFails .left tb p j) ∧ (s.side .left).tables.poisonCond = cond ∧ (s.side .left).tables.commit = commit ∧
    (s.side .left).tables.Healed ∧ ¬ ((startReady 105 false).side .left).tables.Healed := by
  refine ⟨rfl, rfl, rfl, fun _ _ h => (by cases h), fun tb p => ⟨?_, fun j w h => ?_⟩,
    fun tb p j => State.not_bankFails_rom _ _ _ _ _ rfl (readable_rom _ _ _), rfl, rfl, ⟨rfl, fun tb => ?_⟩, ?_⟩
  · cases tb <;> cases p <;> rfl
  · have hj : j < tb.words := by rw [← romTable_length .left tb]; exact (List.getElem?_eq_some_iff.mp h).1
    rw [State.dataAt_rom (readable commit cond none) .left tb p j rfl (readable_rom _ _ _) hj, List.getD_eq_getElem?_getD, h]
    rfl
  · cases tb <;> rfl
  · exact fun h => absurd (h.2 .tone0) (by decide +kernel)

/-- No entry is lost without an injection; a DOUBLE on the last word of LADDER fails its bank at word 5, one on the entry's second word
loses the entry. -/
theorem witness_SecondStatusLineTakesTheFrameStart_errors :
    ((readable none false none).entriesRead .left).length = ((readable none false none).side .left).tables.defectCount ∧
    (let s := readable none false (some { kind := .double, trigger := .address (tableAddr .left .ladder .bank0 5), reads := 0 })
     ((∀ i n, s.tableStore.injection = some i → i.trigger ≠ .count n) ∧
       (s.dataAt (tableAddr .left .ladder .bank0 5) = none ∧ ∀ i, i < 5 → s.dataAt (tableAddr .left .ladder .bank0 i) ≠ none))) ∧
    (let s := readable none false (some { kind := .double, trigger := .address 2049, reads := 0 })
     (s.entriesRead .left).length < (s.side .left).tables.defectCount ∧
       applyEdits (s.entriesRead .left) (s.side .left).dev.edits = [{ row := 2559, col := 1919, cls := 0 }]) := by
  refine ⟨by decide +kernel, ⟨fun i n h => ?_, by decide +kernel⟩, by decide +kernel⟩
  cases h
  exact InjTrigger.noConfusion

/-! ### The loss of a port and the acknowledged group -/

/-- A port whose loss timer has run out with a pending commit of tone0, its reservation on RIGHT, and the active bank of tone0 poisoned:
the swap answers the commit and ends TABLE_POISONED (R162, R164). -/
theorem witness_LossExpiryMakesThePortLost_swap :
    let s := ({ framed 1000 with tick := 891700 }.onLink .right (fun k => { k with replies := [.reserved 4 .left] })).onSide .left
      (fun d => { d with tables := { d.tables with
        ctl := d.tables.ctl.set .tone0 { TableCtl.reset with bad0 := some 3 }, poisonCond := true,
        commit := some { tables := 1, link := some .right } } })
    s.lossDue .left = true ∧ (s.side .left).tables.poisonCond = true ∧
      (((after s (.lossExpiry .left)).side .left).tables.ctl.get .tone0).active = .bank1 ∧
      ((after s (.lossExpiry .left)).side .left).tables.poisonCond = false ∧
      lastReply (after s (.lossExpiry .left)) .right = some (.ready { tag := 4, reason := none, data := [1] }) := by decide +kernel

/-- SENSOR_BUS in force or not; F_cur unknown; the group no longer outstanding; four earlier entries stand, so that the oldest leaves, or
the entry of the same target leaves (R40, R41). The device address from a poisoned bank, a word as stored and one that reads
uncorrectable. -/
theorem witness_AcknowledgedWriteLeavesTheBuffer_group :
    let more := fun (f : Option FrameNo) (targets : List FrameNo) (cond : Bool) (out : List OutstandingItem) =>
      (lastOfGroup 1).onSide .right (fun d => { d with
        port := { d.port with fcur := f },
        bus := { d.bus with busCond := cond },
        exposure := { d.exposure with
          pendingQueue := targets.map (fun q => { target := q, record := recordA }), outstanding := out } })
    let pass := fun (s : State) => ((after s (.sensorBusResponse .right ⟨0, true⟩)).side .right).exposure
    let mine : OutstandingItem := { group := 42, record := recordA }
    (pass (more none [504] true [mine])).pendingQueue.map PendingEntry.target = [504] ∧
    (pass (more (some 503) [504] true [{ mine with group := 41 }])).outstanding.length = 1 ∧
    (pass (more (some 503) [501, 502, 503, 504] false [mine])).pendingQueue.map PendingEntry.target = [502, 503, 504, 505] ∧
    (pass (more (some 503) [504, 505, 506] false [mine])).pendingQueue.map PendingEntry.target = [504, 505] ∧
    ((after (more (some 503) [] true [mine]) (.sensorBusResponse .right ⟨0, true⟩)).side .right).bus.busCond = false := by
  decide +kernel

theorem witness_AcknowledgedWriteLeavesTheBuffer_device :
    ((busy.side .right).tables.ctl.sensor.bad .bank0 ≠ none) ∧
    (let s := busy.onSide .right (fun d => { d with tables := { d.tables with ctl := d.tables.ctl.set .sensor TableCtl.reset } })
     let a := tableAddr .right .sensor .bank0 0
     let bad : State := { s with tableStore := { s.tableStore with
       injection := some { kind := .double, trigger := .address a, reads := 0 } } }
     s.TableReads a (tableDefault a) none ∧ (delivered 5 16 (tableDefault a) : Option Word) = some 0x2C02 ∧
       bad.TableReads a (tableDefault a ^^^ 40) none ∧ (delivered 5 16 (tableDefault a ^^^ 40) : Option Word) = none) := by
  refine ⟨by decide +kernel, .inl ⟨rfl, rfl, rfl⟩, by decide +kernel, .inr ⟨_, rfl, .inl ⟨.inl rfl, rfl, rfl⟩⟩, by decide +kernel⟩

/-! ### The view and the line period -/

/-- With the ROM watermarks 3, 10 and 4: the third repeat makes LIVE_OK STALE with detail 3, the tenth makes STALE LOST with detail 10, and
the fourth fresh frame of a recovery is LIVE_OK again (R137 to R140, R143). -/
theorem witness_OutputFrameStartMovesTheView_reports :
    let at_ := fun (s : State) (v : ViewState) (n r : Nat) => s.onSide .left (fun d => { d with comp := { d.comp with
      view := v, repeatCount := n, recovery := r, staleCond := decide (v = .stale),
      lostCond := decide (v = .lost ∨ v = .recovering) } })
    let t := after (at_ up .liveOk 2 0) (.outputFrameStart .left)
    let u := after (at_ up .stale 9 0) (.outputFrameStart .left)
    let w := after (at_ (framed 5) .recovering 0 3) (.outputFrameStart .left)
    ((t.side .left).comp.view = .stale ∧ (t.side .left).comp.staleCond = true ∧
      (t.faults.get (.side .viewStale .left)).detail = 3) ∧
    ((u.side .left).comp.view = .lost ∧ (u.side .left).comp.staleCond = false ∧ (u.side .left).comp.lostCond = true ∧
      (u.faults.get (.side .viewLost .left)).detail = 10) ∧
    ((w.side .left).comp.view = .liveOk ∧ (w.side .left).comp.lostCond = false ∧ (w.side .left).comp.recovery = 0) := by
  decide +kernel

/-- Row 3 of a shown picture reads clean, in line period 23. -/
theorem witness_LinePeriodGivesTheSlotByTheArbitersRule_clean :
    (pictured 0 none).PicturesReadClean 3 ∧ (23 : Fin 1300).val - 20 = 3 ∧ ¬ (23 : Fin 1300).val < 20 := by
  have hm : (pictured 0 none).frameStore.mem = [] := by decide +kernel
  refine ⟨⟨rfl, fun _ _ _ _ _ _ _ => ?_⟩, by decide, by decide⟩
  rw [hm]
  show checkWord 7 (0#72) = .clean
  decide +kernel

/-! ### Clauses over all steps -/

/-- With DEFECTS and LAYOUT locked, the one entry of the LEFT list about to be lost. -/
def lockedList : State :=
  { oneDefect with
    locks := { oneDefect.locks with defects := true, layout := true },
    tableStore := { oneDefect.tableStore with injection := some { kind := .double, trigger := .address 2048, reads := 0 } },
    pending := [.defectEntry .left (pkt 0 8 0)] }

theorem witness_DefectSplitAndLockFollowTheirChecks_steps :
    (lockedList.pending.head? ≠ some .powerOnReset ∧ (∃ t, step lockedList = .next t) ∧ lockedList.locks.get .defects = true ∧
      lockedList.locks.covers .layout = true ∧
      checkWord 5 (Mem.read tableDefault lockedList.tableStore.mem (tableAddr .left .layout .bank1 47)) = .clean ∧
      47 < TableId.layout.words) ∧
    (∀ x, (lockedList.side x).dev.edits = []) ∧ lockedList.PoolLawful ∧
    lockedList.HoldsList .left [{ row := 640, col := 812, cls := 2 }] ∧ lockedList.HoldsList .right [] := by
  have hl : lockedList.HoldsList .left [{ row := 640, col := 812, cls := 2 }] := by
    refine ⟨rfl, fun i e h => ?_⟩
    match i with
    | 0 => cases h; decide +kernel
    | i + 1 => cases h
  have hr : lockedList.HoldsList .right [] := ⟨rfl, fun _ _ h => (by cases h)⟩
  refine ⟨⟨by decide, ⟨_, rfl⟩, by decide, by decide, by decide +kernel, by decide⟩, fun x => by cases x <;> rfl,
    ⟨by decide, fun x => ?_⟩, hl, hr⟩
  cases x
  · refine ⟨fun e h => (by cases h), _, hl, .cons (fun _ h => (by cases h)) .nil, fun e h => ?_, by decide, by decide⟩
    rw [List.mem_singleton] at h; subst h
    show (640 ≤ 2559 ∧ 812 ≤ 1919) ∧ (2 : BitVec 2) ≠ 3
    decide
  · exact ⟨fun e h => (by cases h), [], hr, .nil, fun _ h => (by cases h), by decide, by decide⟩

/-- A side with pending edits, a list that reads whole or loses its entry, and a pending commit; both sides keep to their shares. -/
theorem witness_RestartSideRestartsEveryBlock_edits :
    let s := (readable (some { tables := 1, link := some .right }) true none).onLink .right (fun k =>
      { k with replies := [.reserved 4 .left] })
    let lossy := readable none false (some { kind := .double, trigger := .address 2049, reads := 0 })
    (s.Admits .left ∧ (s.side .left).dev.edits ≠ [] ∧ s.NoCountTrigger ∧
      (s.entriesRead .left).length = (s.side .left).tables.defectCount) ∧
    ((lossy.side .left).dev.edits ≠ [] ∧ (lossy.entriesRead .left).length < (lossy.side .left).tables.defectCount) ∧
    (∀ y, (s.side y).tables.defectCount ≤ s.shareOf y ∧
      (applyEdits (s.entriesRead y) (s.side y).dev.edits).length ≤ s.shareOf y) ∧
    s.tableStore.leftShare ≤ 4096 ∧ s.repliesSwapped [.left] .right = [.ready { tag := 4, reason := none, data := [1] }] := by
  refine ⟨⟨?_, by decide +kernel, fun _ _ h => (by cases h), by decide +kernel⟩, by decide +kernel, fun y => ?_, by decide +kernel,
    by decide +kernel⟩
  · unfold State.Admits; decide +kernel
  · cases y <;> decide +kernel

/-- A restart of a side whose link is not UP but has been: the ACKED record of the link fault passes through CLEAR and is ACTIVE, counted
again (R179, R193). -/
theorem witness_ReportsChangeARecordByItsState_steps :
    let s : State := { training with
      faults := training.faults.set (.side .displayLinkDown .left)
        { training.faults.get (.side .displayLinkDown .left) with state := .acked }, pending := [.restartSide .right (pkt 0 0 0)] }
    (s.link .left).state ≠ .up ∧ (s.link .left).beenUp = true ∧
      (match step s with
        | .next t => ((t.faults.get (.side .displayLinkDown .left)).state, (t.faults.get (.side .displayLinkDown .left)).count)
        | .fault _ => (.clear, 0)
        | .refused _ => (.clear, 0)) = (.active, 2) := by decide +kernel

/-- An UNCORRECTABLE record of the table store's log stays when CLEAR_ERROR_LOG names the frame store. -/
theorem witness_ErrorLogsClearAndInjectionsArm_steps :
    let e : LogRecord := { kind := .uncorrectable, addr := 7, syndrome := 6, side := .left }
    let s : State := { up with tableStore := { up.tableStore with log := some e }, pending := [.clearErrorLog .left (pkt 0 1 0)] }
    s.pending.head? ≠ some .powerOnReset ∧ ((pkt 0 1 0).s0 ≠ 2 ∧ (pkt 0 1 0).s0 ≠ 3) ∧
      (match step s with
        | .next t => t.tableStore.log
        | .fault _ => none
        | .refused _ => none) = some e := by decide +kernel

/-! ## Boundaries of what is due, of the queues of a link, of the EXPOSURE groups and of the form checks -/

/-- A tick before and at each expiry: LEFT's loss timeout of 10000, RIGHT's response timer of 20, the articulation timer of 50000; the
three fall together at tick 60000. -/
def expiring (tick : Tick) : State :=
  { (up.onSide .left (fun d => { d with port := { d.port with state := .running, lastStart := 50000 } })).onSide .right (fun d =>
      { d with bus := { d.bus with state := .sending, timerStart := 59980 } }) with
    tick := tick, timing := { cycle := 1, elapsed := 1664, nextPeriod := 1299 },
    artic := { angle := 0, tick := 10000, stale := false } }

theorem witness_EmptyQueueCountsATickOrQueuesWhatIsDue_due :
    ((expiring 59999).pending = [] ∧ (expiring 59999).dueExpiries = []) ∧
    (expiring 60000).dueExpiries = [.articulationTimerExpiry, .lossExpiry .left, .responseTimerExpiry .right] := by decide +kernel

/-- In a frame of 1666 ticks line period 1299 falls at tick 1664, and period 1300 never; in a frame of 1667 ticks it falls at 1665. -/
theorem witness_EmptyQueueCountsATickOrQueuesWhatIsDue_timing :
    (1299 * 1666 / 1300 = 1664 ∧ 1299 * 1667 / 1300 = 1665) ∧ (expiring 0).dueTiming = ([.linePeriodStart 1299], []) ∧
    { up with timing := { cycle := 0, elapsed := 1664, nextPeriod := 1299 } }.dueTiming = ([], []) ∧
    { up with timing := { cycle := 1, elapsed := 1665, nextPeriod := 1300 } }.dueTiming = ([], []) ∧
    up.dueTiming = ([.outputFrameStart .left, .outputFrameStart .right], [.linePeriodStart 0]) := by decide +kernel

/-- A link in TRAINING with nothing waiting beside one that is UP with a reply and a notice, and READY in front. -/
theorem witness_EveryStepKeepsTheQueueBounds_links :
    let s : State := { (training.onLink .right (fun k => { k with overrun := true, replies := [.reserved 4 .right] })) with
      pending := [.ready .left] }
    s.LinksLawful ∧ (s.link .left).state = .training ∧ (s.link .right).notices ≠ [] ∧ (after s (.ready .left)).LinksLawful := by
  intro s
  unfold State.LinksLawful
  refine ⟨fun l => ?_, by decide +kernel, by decide +kernel, fun l => ?_⟩ <;> cases l <;> decide +kernel

/-- The bus that superseded: group 42 is outstanding and unsent behind a head under its attempt, which a side restart may have left to
finish; an ACK stands in front of the queue. -/
def awaiting (finishing : Bool) : State :=
  { busy.onSide .right (fun d =>
      { d with
        exposure := { d.exposure with outstanding := [{ group := 42, record := recordA }] },
        bus := { d.bus with finishing := finishing } }) with
    pending := [.sensorBusResponse .right ⟨0, true⟩] }

theorem witness_EveryStepKeepsTheBusLaws_groups (finishing : Bool) (x : Side) :
    (((awaiting finishing).side x).bus.Lawful ∧ ((awaiting finishing).side x).bus.buffer.length ≤ 16 ∧
      ((awaiting finishing).side x).GroupsLawful ∧
      ∀ e ∈ ((awaiting finishing).side x).bus.buffer, e.group ≠ ((awaiting finishing).side x).bus.groupCounter) ∧
    ∃ t, step (awaiting finishing) = .next t := by
  refine ⟨⟨?_, by cases finishing <;> cases x <;> decide, ⟨?_, ?_, ?_, ?_, ?_, ?_, ?_, ?_, ?_⟩, ?_⟩, _, rfl⟩
  · cases x
    · exact ⟨rfl, rfl⟩
    · exact ⟨by cases finishing <;> decide, by cases finishing <;> decide, by cases finishing <;> decide, _, _, rfl, rfl⟩
  case refine_9 =>
    intro a b c h hg
    cases x
    · exact absurd (show 3 ≤ 0 from h.length_le) (by decide)
    · have hb := h.eq_of_length (by cases finishing <;> rfl)
      cases hb
      exact absurd hg (by decide)
  all_goals cases finishing <;> cases x <;> decide +kernel

/-- The head's group is outstanding with its last entry under an attempt. -/
theorem witness_EveryStepKeepsTheBusLaws_head (x : Side) : (joining.side x).GroupsLawful ∧
    ∀ e ∈ (joining.side x).bus.buffer, e.group ≠ (joining.side x).bus.groupCounter := by
  refine ⟨⟨?_, ?_, ?_, ?_, ?_, ?_, ?_, fun a b c h _ => ?_, ?_⟩, ?_⟩
  case refine_8 => cases x <;> exact absurd (show 3 ≤ _ from h.length_le) (by decide)
  all_goals cases x <;> decide +kernel

/-- The response timer at 19 and at 20 ticks, and a bus that is IDLE. -/
theorem witness_FailedAttemptIsRetriedTwiceThenReported_timer :
    ({ busy with tick := 1009 }.responseDue .right = false ∧ (({ busy with tick := 1009 } : State).tick - 990#32).toNat = 19) ∧
    ({ busy with tick := 1010 }.responseDue .right = true ∧ (({ busy with tick := 1010 } : State).tick - 990#32).toNat = 20) ∧
    ((busy.side .left).bus.state = .idle ∧ busy.inReset = false) := by decide +kernel

/-- A link that comes UP for the first time has no link fault to end. -/
theorem witness_LinkEventsFollowTheTable_first :
    let s := after State.reset (.trainingRequest .left)
    (s.inReset = false ∧ (s.link .left).state = .training ∧ (s.link .left).linkCond = false) ∧
      (after s (.ready .left)).faults = s.faults := by decide +kernel

/-- Two records of LEFT in force, and a RIGHT queue that holds one of the two: the other
follows it, and DISPLAY_LINK_DOWN of LEFT stands last (R187). -/
theorem witness_EnteringDownEmptiesTheLinkAndHandsOver_order :
    let f : FaultRecord := { state := .active, count := 1, firstActive := none, lastChange := none, detail := 0 }
    let s := ({ up with faults := ((up.faults.set (.side .sensorLoss .left) f).set (.side .viewLost .left) f) }).onLink .right
      (fun k => { k with notices := [.side .viewLost .left] })
    (s.inReset = false ∧ (s.link .left).state = .up ∧ (s.link .left).beenUp = true ∧ (s.link .right).state = .up ∧
      (s.faults.get (.side .displayLinkDown .left)).state = .clear ∧ (s.link .right).mask.getLsbD 8 = true) ∧
    ((after s (.lossOfLock .left)).link .right).notices =
      [.side .viewLost .left, .side .sensorLoss .left, .side .displayLinkDown .left] := by decide +kernel

/-- BOTH for LOAD_TABLE and COMMIT, which take one side, and 3 for TRIM, which takes BOTH. -/
theorem witness_DirectivesAreDiscardedOrRefusedBeforeTheirRule_side :
    ((Instr.loadTable .left { loadLadder with side := 2 }).sideValues ≤ ({ loadLadder with side := 2 } : Packet).side.toNat ∧
      (Instr.commit .left (pkt 2 32 0)).sideValues ≤ (pkt 2 32 0).side.toNat ∧
      (Instr.trim .left (pkt 3 5 0)).sideValues ≤ (pkt 3 5 0).side.toNat) ∧
    ((pkt 1 32 0).side.toNat < (Instr.commit .left (pkt 1 32 0)).sideValues ∧
      (pkt 2 5 0).side.toNat < (Instr.trim .left (pkt 2 5 0)).sideValues) ∧
    lastReply (after up (.trim .left (pkt 3 5 0))) .left = refused .badArgument [] ∧
    (up.Admits .left ∧ pkt 3 9 0 = { pkt 0 9 0 with side := 3 }) :=
  ⟨by decide, by decide, by decide +kernel, up_admits _, rfl⟩

/-- Each form check of LOAD_TABLE at the first value it refuses: kind 7, instance 1 of LADDER (kind 2), counts 0 and 33, one word more than
the count says, and two words from offset 5 of the 6 of LADDER. -/
theorem witness_LoadTableWritesTheShadowAlone_forms :
    up.Admits .left ∧
    (6 < ((7#16).extractLsb' 0 4).toNat ∧ (2 ≤ ((0x0102#16).extractLsb' 0 4).toNat ∧ ((0x0102#16).extractLsb' 8 2).toNat ≠ 0) ∧
      ((0x0004#16).extractLsb' 8 8).toNat = 0 ∧ ((0x2100#16).extractLsb' 8 8).toNat = 33 ∧
      (pktArgs 0 2 0x0104 [1, 2]).args.length ≠ ((pktArgs 0 2 0x0104 [1, 2]).s1.extractLsb' 8 8).toNat) ∧
    ∃ tb, tableField ((2#16).extractLsb' 0 4).toNat ((2#16).extractLsb' 8 2).toNat = some tb ∧
      tb.words < ((0x0205#16).extractLsb' 0 8).toNat + ((0x0205#16).extractLsb' 8 8).toNat :=
  ⟨up_admits _, by decide, .ladder, by decide, by decide⟩

/-- For DEFECT_ADD and DEFECT_REMOVE: counts 0 and 17, one word too few, and for the one a site of class 3. -/
theorem witness_DefectAddAppendsTheAcceptedSites_forms :
    up.Admits .left ∧ ((pkt 0 0 0).s0 = 0 ∧ 16 < (pkt 0 17 0).s0.toNat ∧
      (pktArgs 0 1 0 [5]).args.length ≠ 2 * (pktArgs 0 1 0 [5]).s0.toNat) ∧
    (∃ k w, (pktArgs 0 1 0 [5, 0xC005]).args[2 * k + 1]? = some w ∧ w.extractLsb' 14 2 = 3) ∧
    lastReply (after up (.defectAdd .left (pktArgs 0 1 0 [5, 0xC005]))) .left = refused .badArgument [] :=
  ⟨up_admits _, by decide, ⟨0, 0xC005, by decide, by decide⟩, by decide +kernel⟩

/-- The mode codes beside FORCE (1) and AUTO (0). -/
theorem witness_SetProfileModeSchedulesABank_forms :
    up.Admits .left ∧ ((pkt 0 2 0).s0 ≠ 1 ∧ (pkt 0 2 0).s0 ≠ 0) ∧
      lastReply (after up (.setProfileModeForce .left (pkt 0 2 0))) .left = refused .badArgument [] :=
  ⟨up_admits _, by decide, by decide +kernel⟩

/-- Class code 13, the first that no class has, and BOTH for class 10, the last of a side. -/
theorem witness_AckFaultAndNoticeMaskActOnTheirTargets_forms :
    up.Admits .left ∧ 12 < (pkt 0 13 0).s0.toNat ∧ ((pkt 2 10 0).s0.toNat ≤ 10 ∧ 2 ≤ (pkt 2 10 0).side.toNat) ∧
      lastReply (after up (.ackFault .left (pkt 2 10 0))) .left = refused .badArgument [] :=
  ⟨up_admits _, by decide, by decide, by decide +kernel⟩

/-- Kind, trigger and memory codes 0 and 3, and a length of one word. -/
theorem witness_ErrorLogsClearAndInjectionsArm_forms :
    up.Admits .left ∧
    ((0x0101#16).extractLsb' 4 2 = 0 ∧ (0x0131#16).extractLsb' 4 2 = 3 ∧ (0x0011#16).extractLsb' 8 2 = 0 ∧
      (0x0311#16).extractLsb' 8 2 = 3 ∧ (0x0110#16).extractLsb' 0 2 = 0 ∧ (0x0113#16).extractLsb' 0 2 = 3) ∧
    (pktArgs 0 0x0111 0 [1]).args.length ≠ 2 ∧
    lastReply (after up (.injectErrorTableStore .left (pktArgs 0 0x0132 0 [1, 0]))) .left = refused .badArgument [] :=
  ⟨up_admits _, by decide, by decide, by decide +kernel⟩

end Sys2Proof.Tests
end

section
/-! The time base on an empty queue (R9, R19, R101, R130). -/

namespace Sys2Proof.Machine

theorem step_of_empty {s : State} (h : s.pending = []) : step s = .next s.idle := by
  simp [step, h]

theorem step_of_cons {s : State} {i : Instr} {rest : List Instr} (h : s.pending = i :: rest) :
    step s = exec i { s with pending := rest } := by
  simp [step, h]

theorem Timing.periodDue_some {t : Timing} {k : Fin 1300} (h : t.periodDue = some k) : k.val = t.nextPeriod := by
  unfold Timing.periodDue at h
  split_ifs at h
  cases h
  rfl

/-- A line period is due from its tick on (R130). -/
theorem Timing.periodDue_eq_some_iff (t : Timing) (k : Fin 1300) :
    t.periodDue = some k ↔ k.val = t.nextPeriod ∧ t.nextPeriod * frameTicks t.cycle / 1300 ≤ t.elapsed := by
  obtain ⟨k, hk⟩ := k
  unfold Timing.periodDue
  split_ifs with h1 h2
  · simp [h2, eq_comm]
  · simp [h2]
  · simp only [false_iff, not_and]
    omega

theorem Timing.periodDue_eq_none_iff (t : Timing) :
    t.periodDue = none ↔ ¬ (t.nextPeriod < 1300 ∧ t.nextPeriod * frameTicks t.cycle / 1300 ≤ t.elapsed) := by
  unfold Timing.periodDue
  split_ifs <;> simp_all

theorem State.dueTiming_of_none {s : State} (h : s.timing.periodDue = none) : s.dueTiming = ([], []) := by
  simp [State.dueTiming, h]

theorem State.dueTiming_of_some {s : State} {k : Fin 1300} (h : s.timing.periodDue = some k) :
    s.dueTiming =
      if k = 0 then ([.outputFrameStart .left, .outputFrameStart .right], [.linePeriodStart 0]) else ([.linePeriodStart k], []) := by
  simp [State.dueTiming, h]

theorem State.mem_dueExpiries (s : State) (i : Instr) : i ∈ s.dueExpiries ↔
    (i = .articulationTimerExpiry ∧ s.articulationDue = true) ∨ (∃ x, i = .lossExpiry x ∧ s.lossDue x = true) ∨
      ∃ x, i = .responseTimerExpiry x ∧ s.responseDue x = true := by
  have one : ∀ (b : Bool) (j : Instr), (i ∈ if b = true then [j] else []) ↔ i = j ∧ b = true := by
    intro b j
    cases b <;> simp
  simp only [State.dueExpiries, List.mem_append, one]
  constructor
  · rintro ((((h | h) | h) | h) | h)
    exacts [.inl h, .inr (.inl ⟨_, h⟩), .inr (.inl ⟨_, h⟩), .inr (.inr ⟨_, h⟩), .inr (.inr ⟨_, h⟩)]
  · rintro (h | ⟨x, h⟩ | ⟨x, h⟩)
    · simp [h]
    · cases x <;> simp [h]
    · cases x <;> simp [h]

/-- What is due is a choice from five different events, in their order. -/
theorem State.dueExpiries_nodup (s : State) : s.dueExpiries.Nodup := by
  have sub : ∀ (b : Bool) (j : Instr), (if b = true then [j] else []).Sublist [j] := by
    intro b j
    cases b <;> simp
  have h : s.dueExpiries.Sublist
      ([.articulationTimerExpiry] ++ [.lossExpiry .left] ++ [.lossExpiry .right] ++ [.responseTimerExpiry .left] ++
        [.responseTimerExpiry .right]) :=
    ((((sub _ _).append (sub _ _)).append (sub _ _)).append (sub _ _)).append (sub _ _)
  exact h.nodup (by decide)

theorem State.articulationDue_iff (s : State) :
    s.articulationDue = true ↔ s.artic.stale = false ∧ 50000 ≤ (s.tick - s.artic.tick).toNat := by
  simp only [State.articulationDue, Bool.and_eq_true, Bool.not_eq_true', decide_eq_true_eq]
  rfl

theorem State.lossDue_iff (s : State) (x : Side) :
    s.lossDue x = true ↔ (s.side x).port.state = .running ∧
      ((s.copies x).sensor.getD 9 0).toNat ≤ (s.tick - (s.side x).port.lastStart).toNat := by
  simp [State.lossDue, ticksSince, State.sensorOf, readSensor, numAt]

theorem State.responseDue_iff (s : State) (x : Side) :
    s.responseDue x = true ↔ (s.side x).bus.state = .sending ∧ 20 ≤ (s.tick - (s.side x).bus.timerStart).toNat := by
  simp only [State.responseDue, Bool.and_eq_true, decide_eq_true_eq]
  rfl

/-- The output timing of the events queued: the period queued is behind (R130). -/
theorem State.queueDue_timing (s : State) :
    s.queueDue.timing =
      if s.dueTiming.1 = [] then s.timing else { s.timing with nextPeriod := s.timing.nextPeriod + 1 } := by
  cases h : s.timing.periodDue with
  | none => simp [State.queueDue, State.dueTiming_of_none h, h]
  | some k =>
    have hne : s.dueTiming.1 ≠ [] := by
      rw [State.dueTiming_of_some h]
      split <;> simp
    simp [State.queueDue, h, hne, Timing.periodDue_some h]

/-- Settles O2: the cases of `State.idle`, and what is due by the rule of each timer. -/
theorem emptyQueueCountsATickOrQueuesWhatIsDue : Obligations.EmptyQueueCountsATickOrQueuesWhatIsDue := by
  refine ⟨fun s hp => ⟨fun hr => ?_, fun hr hd => ?_, fun hr hd => ?_⟩,
    fun s => ⟨s.dueExpiries_nodup, fun i => ?_, fun d k due hk hn hdue => ?_⟩⟩
  · simp [step_of_empty hp, State.idle, hr]
  · rw [step_of_empty hp, State.idle, if_neg (by simp [hr]), if_pos hd]
    rfl
  · refine ⟨s.queueDue, orderFree s.ties (s.dueExpiries ++ s.dueTiming.1), ?_, rfl, ?_, orderFree_perm _ _,
      s.queueDue_timing, rfl⟩
    · rw [step_of_empty hp, State.idle, if_neg (by simp [hr]), if_neg hd]
    · simp [State.queueDue, State.dueEvents, hp]
  · simp only [State.mem_dueExpiries, State.articulationDue_iff, State.lossDue_iff, State.responseDue_iff]
  · have hd : d = frameTicks s.timing.cycle := hk
    subst hd hn
    refine ⟨fun h => ?_, fun h h0 => ?_, fun h h0 n hnk => ?_⟩
    · exact State.dueTiming_of_none ((Timing.periodDue_eq_none_iff _).mpr (fun g => h (hdue.mpr g)))
    · rw [State.dueTiming_of_some (k := 0) ((Timing.periodDue_eq_some_iff _ _).mpr ⟨h0.symm, (hdue.mp h).2⟩), if_pos rfl]
    · rw [State.dueTiming_of_some (k := n) ((Timing.periodDue_eq_some_iff _ _).mpr ⟨hnk, (hdue.mp h).2⟩), if_neg]
      rintro rfl
      exact h0 (by simpa using hnk.symm)

end Sys2Proof.Machine
end

section
/-! The state after reset meets the laws that every step keeps. -/

namespace Sys2Proof.Machine

@[simp] theorem State.reset_side (x : Side) : State.reset.side x = SideState.reset := by cases x <;> rfl

@[simp] theorem State.reset_link (l : Side) : State.reset.link l = Link.reset := by cases l <;> rfl

@[simp] theorem FaultTable.reset_get (i : RecordId) : FaultTable.reset.get i = FaultRecord.reset := by
  cases i with
  | side c x => cases c <;> cases x <;> rfl
  | part p => cases p <;> rfl

@[simp] theorem SideState.reset_slot (n : SlotNo) : SideState.reset.store.slots.get n = Slot.free := by cases n <;> rfl

theorem State.reset_queuesBounded : State.reset.QueuesBounded := by
  intro x
  simp [Link.reset, SideState.reset, Bus.reset, Exposure.reset, Developer.reset]

theorem State.reset_reservationsLawful : State.reset.ReservationsLawful := by
  intro x l
  simp [Link.reset, SideState.reset, SideTables.reset]

theorem State.reset_partRangesLawful : State.reset.PartRangesLawful := by
  refine ⟨by decide, by decide, fun i => ?_⟩
  have : State.reset.faults = FaultTable.reset := rfl
  simp [this, FaultRecord.reset]

theorem State.reset_timingLawful : State.reset.timing.Lawful := by
  simp [Timing.Lawful, State.reset, frameTicks]

theorem State.reset_linksLawful : State.reset.LinksLawful := by
  intro l _
  simp [Link.reset]

theorem State.reset_numbersLawful : State.reset.NumbersLawful := by
  intro x w h
  simp [SideState.reset, Bus.reset] at h

/-- After reset the table store holds the ROM defaults and nothing else (R154, R155). -/
theorem State.reset_tablesLawful : State.reset.TablesLawful :=
  State.tablesLawful_rom _ (fun _ _ => rfl) (fun a _ _ => tableDefault_clean a) (fun x => by simp [SideState.reset, Developer.reset])

theorem State.reset_poolLawful : State.reset.PoolLawful := by
  refine ⟨by decide, fun x => ⟨by simp [SideState.reset, Developer.reset], [], ?_⟩⟩
  simp [State.HoldsList, SideState.reset, SideTables.reset, Developer.reset, applyEdits]

theorem SideState.reset_groupsLawful : SideState.reset.GroupsLawful := by
  simp [SideState.GroupsLawful, SideState.reset, Exposure.reset, Bus.reset]

theorem SideState.reset_slotsLawful : SideState.reset.SlotsLawful := by
  simp [SideState.SlotsLawful, Slot.free]

theorem Composer.reset_viewLawful : Composer.reset.ViewLawful := by
  simp [Composer.ViewLawful, Composer.reset]

theorem Bus.reset_lawful : Bus.reset.Lawful := ⟨rfl, rfl⟩

theorem SideState.reset_countsLawful : SideState.reset.CountsLawful := by
  simp [SideState.CountsLawful, SideState.reset, Port.reset, Exposure.reset, SideStore.reset, Composer.reset]

theorem SideState.reset_pendingLawful : SideState.reset.PendingLawful := by
  simp [SideState.PendingLawful, SideState.reset, Exposure.reset]

theorem SideState.reset_recordsLawful : SideState.reset.RecordsLawful := by
  simp [SideState.RecordsLawful, SideState.heldRecords, SideState.reset, Exposure.reset, Developer.reset]

theorem Glare.reset_lawful : Glare.reset.Lawful := by
  intro z hz
  rw [List.eq_of_mem_replicate hz]
  decide

/-- Settles O5: the power-on values are the fields of `SideState.reset`, and each law holds by its own lemma above. -/
theorem resetHoldsPowerOnValuesAndMeetsTheLaws : Obligations.ResetHoldsPowerOnValuesAndMeetsTheLaws := by
  refine ⟨⟨by and_intros <;> rfl, by and_intros <;> rfl, by and_intros <;> rfl, by and_intros <;> rfl, ⟨rfl, fun z hz => ?_, rfl⟩,
      by and_intros <;> rfl, fun n => by simp [Slot.free], by and_intros <;> rfl, fun tb => by cases tb <;> rfl,
      by and_intros <;> rfl⟩,
    ⟨rfl, rfl⟩, State.reset_queuesBounded, State.reset_reservationsLawful, State.reset_partRangesLawful, State.reset_timingLawful,
      State.reset_linksLawful, State.reset_numbersLawful, State.reset_tablesLawful, State.reset_poolLawful, fun x => ?_,
    fun x => ?_⟩
  · rw [List.eq_of_mem_replicate hz]
    exact ⟨rfl, rfl⟩
  · rw [State.reset_side]
    exact ⟨SideState.reset_pendingLawful, SideState.reset_recordsLawful, Glare.reset_lawful, SideState.reset_groupsLawful⟩
  · rw [State.reset_side]
    exact ⟨SideState.reset_slotsLawful, Composer.reset_viewLawful, Bus.reset_lawful, SideState.reset_countsLawful⟩

end Sys2Proof.Machine
end

section
/-! The third clause of O11 fails in a state that no run reaches: an IDLE bus that is marked as finishing a head. The premise of the
clause, the laws of the bus, ties that mark to no bus state. -/

namespace Sys2Proof.Machine

/-- The inputs of a frame whose metering takes in all zones. -/
def wideOpenInputs : FrameInputs :=
  { exposure := { total := 0, integ := 1, analog := 0, digital := 0 }, bank := 0, tempClass := .normal, defects := [],
    attenuations := [], main := { x := 0, y := 0, w := 960, h := 1280 }, wide := { x := 0, y := 0, w := 960, h := 1280 },
    slot := none }

/-- The LEFT side after the last active line of a frame, its bus IDLE and empty, but marked as finishing a head. -/
def strayFinishing : State :=
  { State.reset.onSide .left (fun d =>
      { d with
        port := { d.port with state := .running, phase := .lines, lineCount := 2560 },
        bus := { d.bus with finishing := true },
        dev := { d.dev with frame := some 0, inputs := some wideOpenInputs } }) with
    pending := [.frameEndMarker .left] }

/-- The state meets the premise of the clause. -/
theorem strayFinishing_meets (x : Side) :
    (strayFinishing.side x).bus.Lawful ∧ (strayFinishing.side x).bus.buffer.length ≤ 16 ∧ (strayFinishing.side x).GroupsLawful ∧
      ∀ e ∈ (strayFinishing.side x).bus.buffer, e.group ≠ (strayFinishing.side x).bus.groupCounter := by
  have hb : (strayFinishing.side x).bus.buffer = [] := by cases x <;> rfl
  have ho : (strayFinishing.side x).exposure.outstanding = [] := by cases x <;> rfl
  refine ⟨by cases x <;> exact ⟨rfl, rfl⟩, by simp [hb], ?_, by simp [hb]⟩
  simp [SideState.GroupsLawful, hb, ho]

theorem strayFinishing_step :
    step strayFinishing = .next (({ strayFinishing with pending := [] } : State).frameEnd .left) := by
  rw [step_of_cons (i := .frameEndMarker .left) (rest := []) rfl, exec_frameEndMarker, State.take_eq _ _ (by decide)]

/-- The good frame end queues an exposure group on the IDLE bus; its head is then of an outstanding group, and still marked as left to
finish. -/
theorem strayFinishing_frameEnd :
    let d := (({ strayFinishing with pending := [] } : State).frameEnd .left).side .left
    d.bus.finishing = true ∧ ∃ o ∈ d.exposure.outstanding, d.bus.buffer.head?.map WriteEntry.group = some o.group := by
  decide +kernel

/-- Refutes O11: its third clause fails at `strayFinishing`, where a good frame end queues a group whose head counts as left to finish
while it is outstanding. -/
theorem not_everyStepKeepsTheBusLaws : ¬ Obligations.EveryStepKeepsTheBusLaws := by
  rintro ⟨-, -, hgroups⟩
  obtain ⟨-, -, -, -, -, -, -, -, hfinish⟩ := hgroups _ _ strayFinishing_meets strayFinishing_step .left
  obtain ⟨hf, o, ho, hhead⟩ := strayFinishing_frameEnd
  exact hfinish hf o ho hhead

end Sys2Proof.Machine
end

section
/-! The table store's operations as runs of elementary steps, so that what each elementary step keeps is kept by all of them. -/

namespace Sys2Proof.Machine

/-- A run of the table store's elementary steps for a side: its words, log and injection, corr_cond, the side's table state, and reports on
ERROR_CORRECTED and on the side's TABLE_POISONED (R156, R164, R171). -/
inductive State.TableSteps (x : Side) (s : State) : State → Prop
  | refl : State.TableSteps x s s
  | store {t : State} (ts : TableStore) : State.TableSteps x s t → State.TableSteps x s { t with tableStore := ts }
  | corr {t : State} (b : Bool) : State.TableSteps x s t → State.TableSteps x s { t with corrCond := b }
  | tables {t : State} (f : SideTables → SideTables) :
      State.TableSteps x s t → State.TableSteps x s (t.onSide x (fun d => { d with tables := f d.tables }))
  | raise {t : State} {i : RecordId} (d : Word) (hi : i = .part .errorCorrected ∨ i = .side .tablePoisoned x) :
      State.TableSteps x s t → State.TableSteps x s (t.raise i d)
  | endFault {t : State} : State.TableSteps x s t → State.TableSteps x s (t.endFault (.side .tablePoisoned x))

theorem State.TableSteps.trans {x : Side} {s t u : State} (h : s.TableSteps x t) (k : t.TableSteps x u) : s.TableSteps x u := by
  induction k with
  | refl => exact h
  | store ts _ ih => exact ih.store ts
  | corr b _ ih => exact ih.corr b
  | tables f _ ih => exact ih.tables f
  | raise d hi _ ih => exact ih.raise d hi
  | endFault _ ih => exact ih.endFault

/-! ## The operations, from the words up -/

theorem State.offerTable_steps (s : State) (x : Side) (e : LogRecord) : s.TableSteps x (s.offerTable e) := .store _ .refl

theorem State.writeTableWords_steps (s : State) (x : Side) (a : Nat) (vs : List Word) : s.TableSteps x (s.writeTableWords a vs) :=
  .store _ .refl

theorem State.reportCorrected_steps (s : State) (x : Side) (a : Nat) : s.TableSteps x (s.reportCorrected a) :=
  .raise _ (.inl rfl) (.corr true .refl)

theorem State.readTableWord_steps (s : State) (x : Side) (a : Nat) : s.TableSteps x (s.readTableWord x a).2 := by
  unfold State.readTableWord
  dsimp only
  split
  · exact .store _ .refl
  · exact (((State.TableSteps.store _ .refl).trans (State.writeTableWords_steps _ x _ _)).trans
      (State.offerTable_steps _ x _)).trans (State.reportCorrected_steps _ x _)
  · exact (State.TableSteps.store _ .refl).trans (State.offerTable_steps _ x _)

theorem State.raisePoison_steps (s : State) (x : Side) (d : Nat) : s.TableSteps x (s.raisePoison x d) :=
  .raise _ (.inr rfl) (.tables (fun d => { d with poisonCond := true }) .refl)

theorem State.endPoisonIfHealed_steps (s : State) (x : Side) : s.TableSteps x (s.endPoisonIfHealed x) := by
  unfold State.endPoisonIfHealed
  dsimp only
  split
  · exact .endFault (.tables (fun d => { d with poisonCond := false }) .refl)
  · exact .refl

theorem State.readBankWord_steps (s : State) (x : Side) (tb : TableId) (p : PhysBank) (j : Nat) :
    s.TableSteps x (s.readBankWord x tb p j).2 := by
  have h := State.readTableWord_steps s x (tableAddr x tb p j)
  rw [State.readBankWord_eq]
  split
  · exact h
  · have h1 := h.tables (fun d =>
      { d with ctl := d.ctl.set tb ((((s.readTableWord x (tableAddr x tb p j)).2.side x).tables.ctl.get tb).poisonAt p j) })
    dsimp only
    split
    · exact h1.trans (State.raisePoison_steps _ _ _)
    · exact h1

theorem State.readBankWords_steps (x : Side) (tb : TableId) (p : PhysBank) (js : List Nat) (s : State) :
    s.TableSteps x (State.readBankWords x tb p js s).2 := by
  induction js generalizing s with
  | nil => exact .refl
  | cons j js ih => exact (State.readBankWord_steps s x tb p j).trans (ih _)

theorem State.copyTable_steps (s : State) (x : Side) (tb : TableId) : s.TableSteps x (s.copyTable x tb).2 := by
  have h := State.readBankWords_steps x tb ((s.side x).tables.ctl.get tb).active (List.range tb.words) s
  unfold State.copyTable
  dsimp only
  split
  · exact .refl
  · split <;> exact h

theorem State.copyTables_steps (x : Side) (tbs : List TableId) (acc : PerTable (List Word)) (s : State) :
    s.TableSteps x (State.copyTables x tbs acc s).2 := by
  induction tbs generalizing acc s with
  | nil => exact .refl
  | cons tb tbs ih => exact (State.copyTable_steps s x tb).trans (ih _ _)

theorem State.checkPoisonAtStart_steps (s : State) (x : Side) : s.TableSteps x (s.checkPoisonAtStart x) := by
  unfold State.checkPoisonAtStart
  dsimp only
  split
  · exact .refl
  · split
    · exact State.raisePoison_steps _ _ _
    · split
      · exact State.raisePoison_steps _ _ _
      · exact .refl

theorem State.readOn_steps (x : Side) (tb : TableId) (p : PhysBank) (k : Nat) (vs : List Word) (s : State) :
    s.TableSteps x (State.readOn x tb p k vs s).2 := by
  induction k generalizing vs s with
  | zero => exact .refl
  | succ k ih =>
    have h := State.readBankWord_steps s x tb p vs.length
    unfold State.readOn
    dsimp only
    split
    · exact h.trans (ih _ _)
    · exact h

theorem State.runChecks_steps (x : Side) (tb : TableId) (p : PhysBank) (cs : List ContentCheck) (vs : List Word) (s : State) :
    s.TableSteps x (State.runChecks x tb p cs vs s).2 := by
  induction cs generalizing vs s with
  | nil =>
    have h := State.readOn_steps x tb p (tb.words - vs.length) vs s
    unfold State.runChecks
    dsimp only
    split <;> exact h
  | cons c cs ih =>
    have h := State.readOn_steps x tb p (c.needs - vs.length) vs s
    unfold State.runChecks
    dsimp only
    split
    · exact h
    · split
      · exact h.trans (ih _ _)
      · exact h

theorem State.validate_steps (x : Side) (tbs : List TableId) (s : State) : s.TableSteps x (State.validate x tbs s).2 := by
  induction tbs generalizing s with
  | nil => exact .refl
  | cons tb tbs ih =>
    have h := State.runChecks_steps x tb ((s.side x).tables.ctl.get tb).active.other (contentChecks tb.kind) [] s
    unfold State.validate
    dsimp only
    split
    · exact h.trans (ih _)
    · exact h
    · exact h

theorem State.readEntry_steps (s : State) (x : Side) (i : Nat) : s.TableSteps x (s.readEntry x i).2 := by
  have h := (State.readTableWord_steps s x (poolAddr x s.tableStore.leftShare i)).trans
    (State.readTableWord_steps _ x (poolAddr x s.tableStore.leftShare i + 1))
  unfold State.readEntry
  dsimp only
  split <;> exact h

theorem State.loseEntry_steps (s : State) (x : Side) : s.TableSteps x (s.loseEntry x) :=
  (State.TableSteps.tables (fun d => { d with defectLoss := true }) .refl).trans (State.raisePoison_steps _ _ _)

theorem State.readEntries_steps (x : Side) (is : List Nat) (s : State) : s.TableSteps x (State.readEntries x is s).2 := by
  induction is generalizing s with
  | nil => exact .refl
  | cons i is ih =>
    have h := State.readEntry_steps s x i
    unfold State.readEntries
    dsimp only
    split
    · exact h.trans (ih _)
    · exact (h.trans (State.loseEntry_steps _ x)).trans (ih _)

theorem State.writeList_steps (s : State) (x : Side) (es : List DefectEntry) : s.TableSteps x (s.writeList x es) :=
  .tables (fun d => { d with defectCount := es.length }) (State.writeTableWords_steps s x _ _)

theorem State.readList_steps (s : State) (x : Side) (edits : List DefectEdit) : s.TableSteps x (s.readList x edits).2 := by
  have h := State.readEntries_steps x (List.range (s.side x).tables.defectCount) s
  unfold State.readList
  dsimp only
  split
  · exact h.trans (State.writeList_steps _ _ _)
  · exact h

theorem State.clearDefectLoss_steps (s : State) (x : Side) : s.TableSteps x (s.clearDefectLoss x) := by
  unfold State.clearDefectLoss
  split
  · exact (State.TableSteps.tables (fun d => { d with defectLoss := false }) .refl).trans (State.endPoisonIfHealed_steps _ x)
  · exact .refl

theorem State.deviceAddress_steps (s : State) (x : Side) : s.TableSteps x (s.deviceAddress x).2 := by
  unfold State.deviceAddress
  dsimp only
  split
  · exact .refl
  · split <;> exact State.readBankWord_steps _ _ _ _ _

end Sys2Proof.Machine
end

section
/-! What every event may do to the queues (R6, R15, R41, R56, R184, R196): one relation that the blocks' operations keep to, closed under
composition, and for each operation the fact that it keeps to it. -/

namespace Sys2Proof.Machine

/-! ## The relation -/

/-- The bounds of the queues of one side (R6, R15, R40, R56). -/
def SideState.Bounded (d : SideState) : Prop :=
  d.bus.buffer.length ≤ 16 ∧ d.exposure.pendingQueue.length ≤ 4 ∧ d.history.length ≤ 8 ∧ d.dev.edits.length ≤ 64

/-- A change of a side that leaves its queues as they are, but for what their entries hold beside the pending targets. -/
structure SideState.SameQueues (d e : SideState) : Prop where
  buffer : e.bus.buffer.length = d.bus.buffer.length
  pending : e.exposure.pendingQueue = d.exposure.pendingQueue
  history : e.history.length = d.history.length
  edits : e.dev.edits.length = d.dev.edits.length
  fcur : e.port.fcur = d.port.fcur

/-- A change of a link that leaves its state and its overrun flag, replaces replies in their places, and queues notices while the link is
UP. -/
structure Link.Calm (k m : Link) : Prop where
  state : m.state = k.state
  overrun : m.overrun = k.overrun
  replies : m.replies.length = k.replies.length
  nodup : k.notices.Nodup → m.notices.Nodup
  quiet : k.state ≠ .up → m.notices = k.notices

/-- A change of the part that is calm on both links and keeps the laws of the queues of both sides. What it does to the pending targets may
rest on `lat`, the range of the exposure latency. -/
structure State.Mild (lat : Prop) (s t : State) : Prop where
  link : ∀ l, (s.link l).Calm (t.link l)
  bounded : ∀ x, (s.side x).Bounded → (t.side x).Bounded
  pending : lat → ∀ x, (s.side x).PendingLawful → (t.side x).PendingLawful

variable {lat : Prop} {s t u : State} {x : Side}

theorem Link.Calm.refl (k : Link) : k.Calm k := ⟨rfl, rfl, rfl, fun h => h, fun _ => rfl⟩

theorem Link.Calm.trans {k m n : Link} (h : k.Calm m) (g : m.Calm n) : k.Calm n where
  state := g.state.trans h.state
  overrun := g.overrun.trans h.overrun
  replies := g.replies.trans h.replies
  nodup hn := g.nodup (h.nodup hn)
  quiet hs := (g.quiet (h.state ▸ hs)).trans (h.quiet hs)

theorem State.Mild.refl (s : State) : s.Mild lat s := ⟨fun _ => .refl _, fun _ h => h, fun _ _ h => h⟩

theorem State.Mild.trans (h : s.Mild lat t) (g : t.Mild lat u) : s.Mild lat u where
  link l := (h.link l).trans (g.link l)
  bounded x hb := g.bounded x (h.bounded x hb)
  pending hl x hp := g.pending hl x (h.pending hl x hp)

theorem SideState.SameQueues.refl (d : SideState) : d.SameQueues d := ⟨rfl, rfl, rfl, rfl, rfl⟩

theorem SideState.SameQueues.trans {d e f : SideState} (h : d.SameQueues e) (g : e.SameQueues f) : d.SameQueues f where
  buffer := g.buffer.trans h.buffer
  pending := g.pending.trans h.pending
  history := g.history.trans h.history
  edits := g.edits.trans h.edits
  fcur := g.fcur.trans h.fcur

theorem SideState.SameQueues.bounded {d e : SideState} (h : d.SameQueues e) (hb : d.Bounded) : e.Bounded := by
  rw [SideState.Bounded, h.buffer, h.pending, h.history, h.edits]
  exact hb

theorem SideState.SameQueues.pendingLawful {d e : SideState} (h : d.SameQueues e) (hp : d.PendingLawful) : e.PendingLawful := by
  rw [SideState.PendingLawful, h.pending, h.fcur]
  exact hp

/-! ## Elementary changes -/

/-- A change of one side is as mild as what it does to the laws of that side's queues. -/
theorem State.Mild.onSide (f : SideState → SideState) (hb : (s.side x).Bounded → (f (s.side x)).Bounded)
    (hp : lat → (s.side x).PendingLawful → (f (s.side x)).PendingLawful) : s.Mild lat (s.onSide x f) where
  link _ := .refl _
  bounded y h := by
    rw [State.side_onSide]
    split
    · next e => exact hb (e ▸ h)
    · exact h
  pending hl y h := by
    rw [State.side_onSide]
    split
    · next e => exact hp hl (e ▸ h)
    · exact h

theorem State.Mild.onSide_same {f : SideState → SideState} (h : (s.side x).SameQueues (f (s.side x))) : s.Mild lat (s.onSide x f) :=
  .onSide f h.bounded (fun _ => h.pendingLawful)

theorem State.Mild.onComp (f : Composer → Composer) : s.Mild lat (s.onComp x f) := .onSide_same ⟨rfl, rfl, rfl, rfl, rfl⟩

/-- A change of anything but the sides and the links is mild. -/
theorem State.Mild.of_eq (hs : t.sides = s.sides) (hl : t.links = s.links) : s.Mild lat t where
  link l := by rw [State.link, State.link, hl]; exact .refl _
  bounded x h := by rw [State.side, hs]; exact h
  pending _ x h := by rw [State.side, hs]; exact h

theorem State.Mild.onLink {l : Side} (f : Link → Link) (h : (s.link l).Calm (f (s.link l))) : s.Mild lat (s.onLink l f) where
  link m := by
    rw [State.link_onLink]
    split
    · next e => exact e ▸ h
    · exact .refl _
  bounded _ h := h
  pending _ _ h := h

/-- Notices are routed to links that are UP alone (R183). -/
theorem State.isUp_of_routesTo {i : RecordId} {l : Side} (h : s.routesTo i l = true) : (s.link l).state = .up := by
  have up : ∀ {m : Side}, s.isUp m = true → (s.link m).state = .up := fun hm => by simpa [State.isUp] using hm
  cases i with
  | part c => exact up h
  | side c y =>
    simp only [State.routesTo] at h
    split at h
    · next hy => rw [of_decide_eq_true h]; exact up hy
    · exact up (Bool.and_eq_true _ _ ▸ h).2

theorem Link.Calm.enqueue (k : Link) (i : RecordId) (h : k.state = .up) : k.Calm (k.enqueue i) where
  state := by simp
  overrun := by simp
  replies := by simp
  nodup := Link.enqueue_nodup i
  quiet hn := absurd h hn

theorem State.Mild.raise (i : RecordId) (d : Word) : s.Mild lat (s.raise i d) where
  link l := by
    rw [State.raise_link]
    split
    · next h => exact .enqueue _ _ (State.isUp_of_routesTo h.2.1)
    · exact .refl _
  bounded x h := by simpa using h
  pending _ x h := by simpa using h

theorem State.Mild.endFault (i : RecordId) : s.Mild lat (s.endFault i) where
  link l := by
    rw [State.endFault_link]
    split
    · next h => exact .enqueue _ _ (State.isUp_of_routesTo h.2.1)
    · exact .refl _
  bounded x h := by simpa using h
  pending _ x h := by simpa using h

/-- A mild change followed by a report is mild. -/
theorem State.Mild.thenRaise (h : s.Mild lat t) (i : RecordId) (d : Word) : s.Mild lat (t.raise i d) := h.trans (.raise i d)

theorem State.Mild.thenEnd (h : s.Mild lat t) (i : RecordId) : s.Mild lat (t.endFault i) := h.trans (.endFault i)

/-- A mild change followed by a change of one side that leaves its queues is mild. -/
theorem State.Mild.thenOnSide {f : SideState → SideState} (h : s.Mild lat t) (hf : (t.side x).SameQueues (f (t.side x))) :
    s.Mild lat (t.onSide x f) := h.trans (.onSide_same hf)

theorem State.TableSteps.mild (h : s.TableSteps x t) : s.Mild lat t := by
  induction h with
  | refl => exact .refl s
  | store ts _ ih => exact ih.trans (.of_eq rfl rfl)
  | corr b _ ih => exact ih.trans (.of_eq rfl rfl)
  | tables f _ ih => exact ih.trans (.onSide_same ⟨rfl, rfl, rfl, rfl, rfl⟩)
  | raise d hi _ ih => exact ih.thenRaise _ _
  | endFault _ ih => exact ih.thenEnd _

/-- A step made on each of a list of sides is mild when each is. -/
theorem State.Mild.forSides {f : State → Side → State} (h : ∀ (s : State) (x : Side), s.Mild lat (f s x)) (xs : List Side) (s : State) :
    s.Mild lat (s.forSides xs f) := by
  induction xs generalizing s with
  | nil => exact .refl s
  | cons x xs ih => exact (h s x).trans (ih _)

/-! ## Commits and condition flags -/

theorem State.swapSet_mild (s : State) (x : Side) (c : PendingCommit) : s.Mild lat (s.swapSet x c) := by
  unfold State.swapSet
  refine .trans ?_ (State.endPoisonIfHealed_steps _ x).mild
  dsimp only
  split
  · exact .trans (.thenOnSide (.refl s) ⟨rfl, rfl, rfl, rfl, rfl⟩) (.onLink _ ⟨rfl, rfl, by simp, fun h => h, fun _ => rfl⟩)
  · exact .thenOnSide (.refl s) ⟨rfl, rfl, rfl, rfl, rfl⟩

theorem State.swapPending_mild (s : State) (x : Side) : s.Mild lat (s.swapPending x) := by
  unfold State.swapPending
  split
  · exact State.swapSet_mild _ _ _
  · exact .refl s

theorem State.checkHot_mild (s : State) (x : Side) (t : Int) : s.Mild lat (s.checkHot x t) := by
  unfold State.checkHot
  dsimp only
  split
  · exact .thenRaise (.onSide_same ⟨rfl, rfl, rfl, rfl, rfl⟩) _ _
  split
  · exact .thenEnd (.onSide_same ⟨rfl, rfl, rfl, rfl, rfl⟩) _
  · exact .refl s

theorem State.reportMatch_mild (s : State) (x : Side) (f : FrameNo) (m : MatchResult) : s.Mild lat (s.reportMatch x f m) := by
  cases m with
  | seeded => exact .refl s
  | matched =>
    simp only [State.reportMatch]
    split
    · exact .thenEnd (.onSide_same ⟨rfl, rfl, rfl, rfl, rfl⟩) _
    · exact .refl s
  | mismatched =>
    simp only [State.reportMatch]
    split
    · exact .thenRaise (.onSide_same ⟨rfl, rfl, rfl, rfl, rfl⟩) _ _
    · exact .refl s

/-- The end of SENSOR_LOSS at a good frame end (R11), the first part of `State.endSensorFaults`. -/
def State.endSensorLoss (s : State) (x : Side) : State :=
  if (s.side x).port.lossCond then
    (s.onSide x (fun d => { d with port := { d.port with lossCond := false } })).endFault (.side .sensorLoss x)
  else s

/-- The end of SENSOR_FRAME at the third good frame end in a row (R10), the second part of `State.endSensorFaults`. -/
def State.endSensorFrame (s : State) (x : Side) : State :=
  if (s.side x).port.goodCount = 3 ∧ (s.side x).port.frameCond then
    (s.onSide x (fun d => { d with port := { d.port with frameCond := false } })).endFault (.side .sensorFrame x)
  else s

theorem State.endSensorFaults_eq (s : State) (x : Side) : s.endSensorFaults x = (s.endSensorLoss x).endSensorFrame x := rfl

theorem State.endSensorFaults_mild (s : State) (x : Side) : s.Mild lat (s.endSensorFaults x) := by
  rw [State.endSensorFaults_eq]
  refine .trans (t := s.endSensorLoss x) ?_ ?_
  · unfold State.endSensorLoss
    split
    · exact .thenEnd (.onSide_same ⟨rfl, rfl, rfl, rfl, rfl⟩) _
    · exact .refl s
  · unfold State.endSensorFrame
    split
    · exact .thenEnd (.onSide_same ⟨rfl, rfl, rfl, rfl, rfl⟩) _
    · exact .refl _

theorem State.endSensorBus_mild (s : State) (x : Side) : s.Mild lat (s.endSensorBus x) := by
  unfold State.endSensorBus
  split
  · exact .thenEnd (.onSide_same ⟨rfl, rfl, rfl, rfl, rfl⟩) _
  · exact .refl s

/-! ## Slots, frames and the developer -/

theorem SideState.SameQueues.freeSlot (d : SideState) (n : SlotNo) (o : FrameOutcome) : d.SameQueues (d.freeSlot n o) :=
  ⟨rfl, rfl, by simp, rfl, rfl⟩

theorem SideState.SameQueues.discardSlot (d : SideState) : d.SameQueues d.discardSlot := by
  unfold SideState.discardSlot
  split
  · exact .refl d
  · exact .freeSlot d _ _

theorem SideState.SameQueues.discardFrame (d : SideState) : d.SameQueues d.discardFrame :=
  (SideState.SameQueues.discardSlot d).trans ⟨rfl, rfl, rfl, rfl, rfl⟩

theorem SideState.SameQueues.readySlot (d : SideState) : d.SameQueues d.readySlot := by
  unfold SideState.readySlot
  split
  · exact .refl d
  · dsimp only
    split
    · exact (SideState.SameQueues.freeSlot d _ _).trans ⟨rfl, rfl, rfl, rfl, rfl⟩
    · exact ⟨rfl, rfl, rfl, rfl, rfl⟩

theorem SideState.SameQueues.resolveSlots (d : SideState) (m : OutputMode) (now : Tick) (limit : Nat) :
    d.SameQueues (d.resolveSlots m now limit).2 := by
  unfold SideState.resolveSlots
  split
  · exact .refl d
  split
  · exact .refl d
  split
  · exact .freeSlot d _ _
  split
  · exact .freeSlot d _ _
  · dsimp only
    split <;> exact ⟨rfl, rfl, by simp, rfl, rfl⟩

theorem SideState.onNewest_history_length (d : SideState) (f : FrameRecord → FrameRecord) :
    (d.onNewest f).history.length = d.history.length := by
  unfold SideState.onNewest
  split
  · rfl
  · next h => simp [h]

theorem SideState.SameQueues.onNewest (d : SideState) (f : FrameRecord → FrameRecord) : d.SameQueues (d.onNewest f) := by
  refine ⟨?_, ?_, SideState.onNewest_history_length d f, ?_, ?_⟩ <;> (unfold SideState.onNewest; split <;> rfl)

/-- A side whose open frame is found malformed at an index (R5): the first part of `State.malformed`. -/
def SideState.closeMalformed (d : SideState) (index : Nat) (started : Bool) : SideState :=
  let d := { d with port := { d.port with
    phase := .closed, statusLines := [], badCount := satSucc d.port.badCount 255, goodCount := 0,
    malformIndex := some index } }
  if started then d.discardFrame else d

/-- SENSOR_FRAME is set with an index (R10): the second part of `State.malformed`. -/
def State.setSensorFrame (s : State) (x : Side) (index : Nat) : State :=
  (s.onSide x (fun d => { d with port := { d.port with frameCond := true } })).raise (.side .sensorFrame x) (wordOf index)

theorem State.malformed_eq (s : State) (x : Side) (index : Nat) (started : Bool) :
    s.malformed x index started =
      if 3 ≤ ((s.onSide x (fun d => d.closeMalformed index started)).side x).port.badCount ∨
          ((s.onSide x (fun d => d.closeMalformed index started)).side x).port.frameCond = true then
        (s.onSide x (fun d => d.closeMalformed index started)).setSensorFrame x index
      else s.onSide x (fun d => d.closeMalformed index started) := rfl

theorem SideState.SameQueues.closeMalformed (d : SideState) (index : Nat) (started : Bool) :
    d.SameQueues (d.closeMalformed index started) := by
  cases started with
  | false => exact ⟨rfl, rfl, rfl, rfl, rfl⟩
  | true => exact .trans (e := d.closeMalformed index false) ⟨rfl, rfl, rfl, rfl, rfl⟩ (.discardFrame _)

theorem State.malformed_mild (s : State) (x : Side) (index : Nat) (started : Bool) : s.Mild lat (s.malformed x index started) := by
  have close : s.Mild lat (s.onSide x (fun d => d.closeMalformed index started)) := .onSide_same (.closeMalformed _ _ _)
  rw [State.malformed_eq]
  split
  · exact .thenRaise (.thenOnSide close ⟨rfl, rfl, rfl, rfl, rfl⟩) _ _
  · exact close

theorem State.writeRows_mild (x : Side) (n : SlotNo) (rs : List (Nat × List Pixel)) (s : State) :
    s.Mild lat (State.writeRows x n rs s) := by
  induction rs generalizing s with
  | nil => exact .refl s
  | cons r rs ih => exact .trans (t := s.writeFrameWords x _ _) (.of_eq rfl rfl) (ih _)

theorem State.developCellRow_mild (x : Side) (inp : FrameInputs) (cells : List Cell) (cy : Nat) (s : State) :
    s.Mild lat (State.developCellRow x inp cells cy s) := by
  unfold State.developCellRow
  dsimp only
  split
  · exact .onSide_same ⟨rfl, rfl, rfl, rfl, rfl⟩
  · exact .trans (.thenOnSide (.refl s) ⟨rfl, rfl, rfl, rfl, rfl⟩) (State.writeRows_mild _ _ _ _)

theorem State.developLine_mild (s : State) (x : Side) (n : Nat) (raw : List Sample) : s.Mild lat (s.developLine x n raw) := by
  unfold State.developLine
  dsimp only
  split
  · have run : ∀ (cys : List Nat) (g : Nat → List Cell) (inp : FrameInputs) (s : State),
        s.Mild lat (cys.foldl (fun s cy => State.developCellRow x inp (g cy) cy s) s) := by
      intro cys g inp
      induction cys with
      | nil => exact fun s => .refl s
      | cons cy cys ih => exact fun s => (State.developCellRow_mild x inp _ cy s).trans (ih _)
    exact .trans (.thenOnSide (.refl s) ⟨rfl, rfl, rfl, rfl, rfl⟩) (run _ (fun cy => cellRow _ _ n cy) _ _)
  · exact .refl s

end Sys2Proof.Machine
end

section
/-! Events within one side: a frame that all the sensor's events keep to, and the stages of a frame start (R6) with what each makes of its
side. -/

namespace Sys2Proof.Machine

/-! ## The frame of an event within a side -/

/-- An event within a side touches nothing of the other side, the DRAM, the articulation record, the locks and the time base; on the links
it queues notices and fills replies in their places, and it reports on the records named alone. -/
structure State.Within (s t : State) (x : Side) (records : List RecordId) : Prop where
  rest : { t with sides := s.sides, links := s.links, faults := s.faults, tableStore := s.tableStore, corrCond := s.corrCond } = s
  other : t.side x.other = s.side x.other
  link : ∀ l, { t.link l with notices := (s.link l).notices, replies := (s.link l).replies } = s.link l
  faults : ∀ i, i ∉ records → t.faults.get i = s.faults.get i

variable {s t u : State} {x : Side} {rs qs : List RecordId}

theorem State.Within.refl (s : State) (x : Side) (rs : List RecordId) : s.Within s x rs :=
  ⟨rfl, rfl, fun _ => rfl, fun _ _ => rfl⟩

theorem State.Within.mono (h : s.Within t x rs) (hs : ∀ i ∈ rs, i ∈ qs) : s.Within t x qs :=
  { h with faults := fun i hi => h.faults i (fun g => hi (hs i g)) }

theorem State.Within.trans (h : s.Within t x rs) (k : t.Within u x rs) : s.Within u x rs where
  rest := by rw [← h.rest, ← k.rest]
  other := k.other.trans h.other
  link l := by rw [← h.link l, ← k.link l]
  faults i hi := (k.faults i hi).trans (h.faults i hi)

theorem State.Within.onSide (s : State) (x : Side) (f : SideState → SideState) (rs : List RecordId) : s.Within (s.onSide x f) x rs :=
  ⟨rfl, by simp, fun _ => rfl, fun _ _ => rfl⟩

theorem State.Reported.within {i : RecordId} (h : s.Reported t [i]) (hi : i ∈ rs) : s.Within t x rs := by
  have hs : t.sides = s.sides := by have := congrArg State.sides h.rest; exact this
  refine ⟨?_, by rw [State.side, State.side, hs], fun l => ?_, fun j hj => h.faults j (fun e => hj ?_)⟩
  · rw [← h.rest]
  · rw [← h.link l]
  · rw [List.mem_singleton.mp e]; exact hi

theorem State.TableFrame.within (h : s.TableFrame t x) (he : .part .errorCorrected ∈ rs) (hp : .side .tablePoisoned x ∈ rs) :
    s.Within t x rs where
  rest := h.rest
  other := h.other
  link l := by rw [← h.link l]
  faults i hi := h.faults i (fun e => hi (e ▸ he)) (fun e => hi (e ▸ hp))

/-- A change of a side followed by a report on a record named stays within the side. -/
theorem State.Within.raise (h : s.Within t x rs) {i : RecordId} (hi : i ∈ rs) (d : Word) : s.Within (t.raise i d) x rs :=
  h.trans ((State.raise_reported t i d).within hi)

theorem State.Within.endFault (h : s.Within t x rs) {i : RecordId} (hi : i ∈ rs) : s.Within (t.endFault i) x rs :=
  h.trans ((State.endFault_reported t i).within hi)

theorem State.Within.thenOnSide (h : s.Within t x rs) (f : SideState → SideState) : s.Within (t.onSide x f) x rs :=
  h.trans (.onSide t x f rs)

/-! Each field that the frame leaves, by name. -/

theorem State.Within.pending (h : s.Within t x rs) : t.pending = s.pending := by
  have := congrArg State.pending h.rest; exact this

theorem State.Within.inReset (h : s.Within t x rs) : t.inReset = s.inReset := by
  have := congrArg State.inReset h.rest; exact this

theorem State.Within.tick (h : s.Within t x rs) : t.tick = s.tick := by
  have := congrArg State.tick h.rest; exact this

theorem State.Within.opened (h : s.Within t x rs) : t.opened = s.opened := by
  have := congrArg State.opened h.rest; exact this

theorem State.Within.artic (h : s.Within t x rs) : t.artic = s.artic := by
  have := congrArg State.artic h.rest; exact this

theorem State.Within.locks (h : s.Within t x rs) : t.locks = s.locks := by
  have := congrArg State.locks h.rest; exact this

theorem State.Within.frameStore (h : s.Within t x rs) : t.frameStore = s.frameStore := by
  have := congrArg State.frameStore h.rest; exact this

/-! ## Swaps -/

/-- The records that the table store reports on. -/
def tableRecords (x : Side) : List RecordId := [.part .errorCorrected, .side .tablePoisoned x]

theorem State.TableFrame.within_tableRecords (h : s.TableFrame t x) : s.Within t x (tableRecords x) :=
  h.within (by simp [tableRecords]) (by simp [tableRecords])

/-- The control records of a side after a swap, with no commit pending (R162): the first part of `State.swapSet`. -/
def State.exchange (s : State) (x : Side) (c : PendingCommit) : State :=
  s.onSide x (fun d => { d with tables := { d.tables with ctl := swapTables c.tables d.tables.ctl, commit := none } })

/-- The reply DONE of a commit, where a link still holds its reservation (R162): the second part of `State.swapSet`. -/
def State.fillCommit (s : State) (x : Side) (c : PendingCommit) : State :=
  match c.link with
  | some l => s.onLink l (fun k => { k with replies := k.replies.map (ReplyEntry.fill x [setWord c.tables]) })
  | none => s

theorem State.swapSet_eq (s : State) (x : Side) (c : PendingCommit) :
    s.swapSet x c = ((s.exchange x c).fillCommit x c).endPoisonIfHealed x := rfl

theorem State.fillCommit_rest (s : State) (x : Side) (c : PendingCommit) : { s.fillCommit x c with links := s.links } = s := by
  unfold State.fillCommit; split <;> rfl

@[simp] theorem State.fillCommit_sides (s : State) (x : Side) (c : PendingCommit) : (s.fillCommit x c).sides = s.sides := by
  have := congrArg State.sides (s.fillCommit_rest x c); exact this

@[simp] theorem State.fillCommit_side (s : State) (x y : Side) (c : PendingCommit) : (s.fillCommit x c).side y = s.side y := by
  simp [State.side]

@[simp] theorem State.fillCommit_faults (s : State) (x : Side) (c : PendingCommit) : (s.fillCommit x c).faults = s.faults := by
  have := congrArg State.faults (s.fillCommit_rest x c); exact this

@[simp] theorem State.fillCommit_tableStore (s : State) (x : Side) (c : PendingCommit) :
    (s.fillCommit x c).tableStore = s.tableStore := by
  have := congrArg State.tableStore (s.fillCommit_rest x c); exact this

/-- The reservation of the commit is filled where it stands (R162, R197). -/
theorem State.fillCommit_link (s : State) (x l : Side) (c : PendingCommit) :
    (s.fillCommit x c).link l =
      if c.link = some l then { s.link l with replies := (s.link l).replies.map (ReplyEntry.fill x [setWord c.tables]) }
      else s.link l := by
  unfold State.fillCommit
  split
  · next m hm =>
    rw [State.link_onLink, hm]
    by_cases e : l = m
    · simp [e]
    · rw [if_neg e, if_neg (fun h => e (Option.some.inj h).symm)]
  · next hm => simp [hm]

theorem State.fillCommit_within (s : State) (x : Side) (c : PendingCommit) : s.Within (s.fillCommit x c) x rs where
  rest := by unfold State.fillCommit; split <;> rfl
  other := by simp
  link l := by rw [State.fillCommit_link]; split <;> rfl
  faults i _ := by simp

theorem State.endPoisonIfHealed_within (s : State) (x : Side) : s.Within (s.endPoisonIfHealed x) x [.side .tablePoisoned x] := by
  unfold State.endPoisonIfHealed
  dsimp only
  split
  · exact (State.Within.onSide s x _ _).endFault (by simp)
  · exact .refl s x _

theorem State.endPoisonIfHealed_tables (s : State) (x : Side) :
    { ((s.endPoisonIfHealed x).side x).tables with poisonCond := (s.side x).tables.poisonCond } = (s.side x).tables := by
  unfold State.endPoisonIfHealed
  dsimp only
  split <;> simp

@[simp] theorem State.endPoisonIfHealed_tableStore (s : State) (x : Side) : (s.endPoisonIfHealed x).tableStore = s.tableStore := by
  unfold State.endPoisonIfHealed
  dsimp only
  split <;> simp

theorem State.swapSet_within (s : State) (x : Side) (c : PendingCommit) : s.Within (s.swapSet x c) x [.side .tablePoisoned x] := by
  rw [State.swapSet_eq]
  exact ((State.Within.onSide s x _ _).trans (State.fillCommit_within _ x c)).trans (State.endPoisonIfHealed_within _ x)

/-- A swap touches of its side the tables alone (R162). -/
theorem State.swapSet_side (s : State) (x : Side) (c : PendingCommit) :
    { (s.swapSet x c).side x with tables := (s.side x).tables } = s.side x := by
  have h := (State.endPoisonIfHealed_frame ((s.exchange x c).fillCommit x c) x).side
  simp only [State.fillCommit_side, State.exchange, State.onSide_side] at h
  rw [State.swapSet_eq]
  exact congrArg (fun d : SideState => { d with tables := (s.side x).tables }) h

/-- Of the tables a swap touches the control records, the pending commit and the poison flag (R162). -/
theorem State.swapSet_tables (s : State) (x : Side) (c : PendingCommit) :
    { ((s.swapSet x c).side x).tables with
        ctl := (s.side x).tables.ctl, commit := (s.side x).tables.commit, poisonCond := (s.side x).tables.poisonCond } =
      (s.side x).tables := by
  have h := State.endPoisonIfHealed_tables ((s.exchange x c).fillCommit x c) x
  simp only [State.fillCommit_side, State.exchange, State.onSide_side] at h
  rw [State.swapSet_eq]
  exact congrArg (fun d : SideTables => { d with ctl := (s.side x).tables.ctl, commit := (s.side x).tables.commit }) h

@[simp] theorem State.swapSet_tableStore (s : State) (x : Side) (c : PendingCommit) : (s.swapSet x c).tableStore = s.tableStore := by
  rw [State.swapSet_eq]
  simp [State.exchange]

theorem State.endPoisonIfHealed_replies (s : State) (x l : Side) :
    ((s.endPoisonIfHealed x).link l).replies = (s.link l).replies :=
  (State.endPoisonIfHealed_frame s x).link_replies l

theorem State.swapSet_replies (s : State) (x l : Side) (c : PendingCommit) :
    ((s.swapSet x c).link l).replies =
      if c.link = some l then (s.link l).replies.map (ReplyEntry.fill x [setWord c.tables]) else (s.link l).replies := by
  rw [State.swapSet_eq, State.endPoisonIfHealed_replies, State.fillCommit_link]
  split <;> rfl

/-! ## The pending commit of a side -/

theorem State.swapPending_none (h : (s.side x).tables.commit = none) : s.swapPending x = s := by
  simp [State.swapPending, h]

theorem State.swapPending_some {c : PendingCommit} (h : (s.side x).tables.commit = some c) : s.swapPending x = s.swapSet x c := by
  simp [State.swapPending, h]

theorem State.swapPending_within (s : State) (x : Side) : s.Within (s.swapPending x) x [.side .tablePoisoned x] := by
  cases h : (s.side x).tables.commit with
  | none => rw [State.swapPending_none h]; exact .refl s x _
  | some c => rw [State.swapPending_some h]; exact State.swapSet_within _ _ _

theorem State.swapPending_side (s : State) (x : Side) :
    { (s.swapPending x).side x with tables := (s.side x).tables } = s.side x := by
  cases h : (s.side x).tables.commit with
  | none => rw [State.swapPending_none h]
  | some c => rw [State.swapPending_some h]; exact State.swapSet_side s x c

theorem State.swapPending_tables (s : State) (x : Side) :
    { ((s.swapPending x).side x).tables with
        ctl := (s.side x).tables.ctl, commit := (s.side x).tables.commit, poisonCond := (s.side x).tables.poisonCond } =
      (s.side x).tables := by
  cases h : (s.side x).tables.commit with
  | none => rw [State.swapPending_none h, ← h]
  | some c => rw [State.swapPending_some h, ← h]; exact State.swapSet_tables s x c

@[simp] theorem State.swapPending_tableStore (s : State) (x : Side) : (s.swapPending x).tableStore = s.tableStore := by
  unfold State.swapPending
  split <;> simp

/-- The control records after the pending commit is carried out: the named ones are swapped (R162). -/
theorem State.swapPending_ctl (s : State) (x : Side) (tb : TableId) :
    ((s.swapPending x).side x).tables.ctl.get tb =
      if ((s.side x).tables.commit.map (fun c => c.tables.getLsbD tb.num)) = some true then ((s.side x).tables.ctl.get tb).swapped
      else (s.side x).tables.ctl.get tb := by
  cases h : (s.side x).tables.commit with
  | none => simp [State.swapPending_none h]
  | some c => simp [State.swapPending_some h, State.swapSet_ctl]

/-- The replies after the pending commit is carried out: its reservation is filled in its place (R162, R197). -/
theorem State.swapPending_replies (s : State) (x l : Side) :
    ((s.swapPending x).link l).replies = s.repliesSwapped [x] l := by
  unfold State.repliesSwapped
  cases h : (s.side x).tables.commit with
  | none =>
    rw [State.swapPending_none h]
    refine (List.map_id _).symm.trans (List.map_congr_left fun e _ => ?_)
    cases e with
    | ready q => rfl
    | reserved tag y =>
      dsimp only
      split
      · next c hc => rw [if_neg]; · rfl
                     · rintro ⟨hy, -⟩; rw [List.mem_singleton.mp hy, h] at hc; cases hc
      · rfl
  | some c =>
    rw [State.swapPending_some h, State.swapSet_replies]
    split
    · next hl =>
      refine List.map_congr_left fun e _ => ?_
      cases e with
      | ready q => rfl
      | reserved tag y =>
        dsimp only [ReplyEntry.fill]
        by_cases hy : y = x
        · simp [hy, h, hl, setWord]
        · simp only [hy, if_false, List.mem_singleton, false_and]
          split <;> rfl
    · next hl =>
      refine (List.map_id _).symm.trans (List.map_congr_left fun e _ => ?_)
      cases e with
      | ready q => rfl
      | reserved tag y =>
        dsimp only
        split
        · next d hd =>
          rw [if_neg]
          · rfl
          · rintro ⟨hy, hd'⟩
            rw [List.mem_singleton.mp hy, h] at hd
            exact hl ((Option.some.inj hd) ▸ hd')
        · rfl

/-- Whether a side's tables are in order, as the end of TABLE_POISONED asks (R162, R164). -/
theorem SideTables.healed_iff (d : SideTables) : d.firstActiveBad = none ∧ d.defectLoss = false ↔ d.Healed := by
  have all : ∀ tb, tb ∈ TableId.all := fun tb => by cases tb <;> decide
  simp only [SideTables.Healed, SideTables.firstActiveBad, List.find?_eq_none, SideTables.activeBad, Bool.not_eq_true,
    Option.isSome_eq_false_iff, Option.isNone_iff_eq_none]
  exact ⟨fun ⟨h, g⟩ => ⟨g, fun tb => h tb (all tb)⟩, fun ⟨g, h⟩ => ⟨fun tb _ => h tb, g⟩⟩

/-- The end of TABLE_POISONED where a side in force is healed; elsewhere nothing happens (R162, R164). -/
theorem State.endPoisonIfHealed_of_healed (h : (s.side x).tables.poisonCond = true ∧ (s.side x).tables.Healed) :
    s.endPoisonIfHealed x =
      (s.onSide x (fun d => { d with tables := { d.tables with poisonCond := false } })).endFault (.side .tablePoisoned x) := by
  have g := (SideTables.healed_iff _).mpr h.2
  simp [State.endPoisonIfHealed, h.1, g.1, g.2]

theorem State.endPoisonIfHealed_of_not (h : ¬ ((s.side x).tables.poisonCond = true ∧ (s.side x).tables.Healed)) :
    s.endPoisonIfHealed x = s := by
  unfold State.endPoisonIfHealed
  exact if_neg (fun g => h ⟨g.1, (SideTables.healed_iff _).mp g.2⟩)

@[simp] theorem FaultRecord.endedAt_state (r : FaultRecord) (now : Tick) : (r.endedAt now).state = .clear := by
  unfold FaultRecord.endedAt; split <;> simp_all

@[simp] theorem FaultRecord.endedAt_detail (r : FaultRecord) (now : Tick) : (r.endedAt now).detail = r.detail := by
  unfold FaultRecord.endedAt; split <;> rfl

theorem FaultRecord.setAt_state (r : FaultRecord) (now : Tick) (d : Word) : (r.setAt now d).state ≠ .clear := by
  unfold FaultRecord.setAt; split <;> simp_all

@[simp] theorem FaultRecord.setAt_detail (r : FaultRecord) (now : Tick) (d : Word) : (r.setAt now d).detail = d := by
  unfold FaultRecord.setAt; split <;> rfl

/-- A swap ends TABLE_POISONED where it leaves the side healed (R162, R164). -/
theorem State.swapSet_endsPoison (s : State) (x : Side) (c : PendingCommit) : s.SwapEndsPoison (s.swapSet x c) x := by
  have hp : (((s.exchange x c).fillCommit x c).side x).tables.poisonCond = (s.side x).tables.poisonCond := by
    simp [State.exchange]
  have hh : ((s.swapSet x c).side x).tables.Healed ↔ (((s.exchange x c).fillCommit x c).side x).tables.Healed := by
    have hc := State.swapSet_ctl s x c
    have hd := congrArg SideTables.defectLoss (State.swapSet_tables s x c)
    simp only at hd
    simp [SideTables.Healed, hc, hd, State.exchange]
  rw [State.SwapEndsPoison, hh, State.KeepsPoison]
  by_cases h : (((s.exchange x c).fillCommit x c).side x).tables.poisonCond = true ∧
      (((s.exchange x c).fillCommit x c).side x).tables.Healed
  · rw [State.swapSet_eq, State.endPoisonIfHealed_of_healed h]
    refine ⟨fun _ _ => by simp, fun g => absurd ⟨hp ▸ h.1, h.2⟩ g⟩
  · rw [State.swapSet_eq, State.endPoisonIfHealed_of_not h]
    exact ⟨fun g1 g2 => absurd ⟨hp.trans g1, g2⟩ h, fun _ => ⟨hp, by simp [State.exchange]⟩⟩

end Sys2Proof.Machine
end

section
/-! Malformed frames, the frame-begin marker and the loss expiry (R2 to R5, R9 to R11, R61, R112). -/

namespace Sys2Proof.Machine

variable {s t : State} {x : Side} {rs : List RecordId}

/-! ## Events that only report -/

theorem State.EventOf.onSide (s : State) (x : Side) (f : SideState → SideState) (rs : List RecordId) :
    s.EventOf (s.onSide x f) x rs :=
  ⟨by simp, fun _ => rfl, fun _ _ => rfl, rfl⟩

theorem State.EventOf.thenOnSide (h : s.EventOf t x rs) (f : SideState → SideState) : s.EventOf (t.onSide x f) x rs := by
  obtain ⟨h1, h2, h3, h4⟩ := h
  exact ⟨by simpa using h1, h2, h3, by rw [← h4]; rfl⟩

theorem State.EventOf.raise (h : s.EventOf t x rs) {i : RecordId} (hi : i ∈ rs) (d : Word) : s.EventOf (t.raise i d) x rs := by
  obtain ⟨h1, h2, h3, h4⟩ := h
  have r := State.raise_reported t i d
  refine ⟨by simpa using h1, fun l => ?_, fun j hj => ?_, ?_⟩
  · rw [← h2 l, ← r.link l]
  · rw [r.faults j (fun e => hj (List.mem_singleton.mp e ▸ hi)), h3 j hj]
  · exact (congrArg (fun u : State => { u with sides := s.sides, links := s.links, faults := s.faults }) r.rest).trans h4

/-! ## Discarding the frame in flight -/

/-- With at most one FILLING slot, the one found is the one freed (R109, R112). -/
theorem SideState.discardSlot_discards (d : SideState) (huniq : ∀ n m : SlotNo,
    (d.store.slots.get n).state = (d.store.slots.get m).state → n = m ∨ (d.store.slots.get n).state = .free) :
    d.DiscardsFilling d.discardSlot := by
  unfold SideState.discardSlot
  cases hf : d.store.slots.find .filling with
  | none =>
    have hn := Slots.find_none hf
    exact ⟨fun n => by rw [if_neg (hn n)], fun n c h _ => absurd h (hn n), fun _ => rfl⟩
  | some m =>
    have hm := Slots.find_some hf
    have only : ∀ n, (d.store.slots.get n).state = .filling ↔ n = m := by
      refine fun n => ⟨fun hn => ?_, fun e => e ▸ hm⟩
      rcases huniq n m (hn.trans hm.symm) with e | e
      · exact e
      · rw [hn] at e; cases e
    refine ⟨fun n => ?_, fun n c hn hc => ?_, fun h => absurd hm (h m)⟩
    · rw [SideState.freeSlot_slot]
      by_cases e : n = m
      · rw [if_pos e, if_pos ((only n).mpr e), e]
      · rw [if_neg e, if_neg (fun g => e ((only n).mp g))]
    · rw [(only n).mp hn] at hc
      simp only [SideState.freeSlot, hc]
      rfl

/-! ## What a malformed frame makes of its side -/

theorem SideState.closeMalformed_frame (d : SideState) (index : Nat) (started : Bool) :
    { d.closeMalformed index started with port := d.port, history := d.history, dev := d.dev, store := d.store } = d := by
  cases started with
  | false => rfl
  | true =>
    have h := SideState.discardSlot_frame (d.closeMalformed index false)
    exact congrArg (fun e : SideState =>
      { e with port := d.port, history := d.history, dev := d.dev, store := d.store }) h

theorem SideState.closeMalformed_port (d : SideState) (index : Nat) (started : Bool) :
    (d.closeMalformed index started).port =
      { d.port with phase := .closed, statusLines := [], badCount := satSucc d.port.badCount 255, goodCount := 0,
                    malformIndex := some index } := by
  cases started with
  | false => rfl
  | true => exact SideState.discardFrame_port (d.closeMalformed index false)

/-- A frame in LINES is discarded (R61, R112). -/
theorem SideState.closeMalformed_discards (d : SideState) (index : Nat) (h : d.SlotsLawful) :
    d.DiscardsFilling (d.closeMalformed index true) :=
  SideState.discardSlot_discards (d.closeMalformed index false) h.1

/-- The port alone differs from the closed frame: frame_cond may be set (R10). -/
theorem State.malformed_side (s : State) (x : Side) (index : Nat) (started : Bool) :
    { (s.malformed x index started).side x with port := (s.side x).port } =
      { (s.side x).closeMalformed index started with port := (s.side x).port } := by
  rw [State.malformed_eq]
  split <;> simp [State.setSensorFrame]

theorem State.malformed_eventOf (s : State) (x : Side) (index : Nat) (started : Bool) :
    s.EventOf (s.malformed x index started) x [.side .sensorFrame x] := by
  rw [State.malformed_eq]
  split
  · exact ((State.EventOf.onSide s x _ _).thenOnSide _).raise (by simp) _
  · exact .onSide s x _ _

/-- The records after a malformed frame: SENSOR_FRAME is set at the third in a row and while frame_cond is set (R10). -/
theorem State.malformed_faults (s : State) (x : Side) (index : Nat) (started : Bool) :
    (s.malformed x index started).faults =
      if 3 ≤ satSucc (s.side x).port.badCount 255 ∨ (s.side x).port.frameCond = true then
        s.faults.set (.side .sensorFrame x) ((s.faults.get (.side .sensorFrame x)).setAt s.tick (wordOf index))
      else s.faults := by
  rw [State.malformed_eq]
  simp only [State.onSide_side, SideState.closeMalformed_port]
  split <;> simp [State.setSensorFrame]

/-- What a malformed frame makes of its side, in the words of the statements (R4, R5, R10, R61, R112). -/
theorem State.malformed_spec (s : State) (x : Side) (index : Nat) (started : Bool) :
    let t := s.malformed x index started
    (t.side x).port.phase = .closed ∧ (t.side x).port.badCount = min ((s.side x).port.badCount + 1) 255 ∧
    (t.side x).port.goodCount = 0 ∧ (t.side x).port.malformIndex = some index ∧
    (t.side x).port.state = (s.side x).port.state ∧ (t.side x).port.fcur = (s.side x).port.fcur ∧
    ((3 ≤ (t.side x).port.badCount ∨ (s.side x).port.frameCond = true) → (t.side x).port.frameCond = true ∧
      (t.faults.get (.side .sensorFrame x)).state ≠ .clear ∧
      some (t.faults.get (.side .sensorFrame x)).detail = (t.side x).port.malformIndex.map wordOf) ∧
    ((t.side x).port.badCount < 3 → (s.side x).port.frameCond = false →
      t.faults = s.faults ∧ (t.side x).port.frameCond = false) ∧
    (started = true → (t.side x).dev.frame = none ∧ (t.side x).dev.zones = zeroZones) ∧
    (started = true → (s.side x).SlotsLawful → (s.side x).DiscardsFilling (t.side x)) ∧
    (started = false → { t.side x with port := (s.side x).port } = s.side x) ∧
    { t.side x with port := (s.side x).port, history := (s.side x).history, dev := (s.side x).dev, store := (s.side x).store } =
      s.side x ∧
    s.EventOf t x [.side .sensorFrame x] := by
  intro t
  have hside : { t.side x with port := (s.side x).port } =
      { (s.side x).closeMalformed index started with port := (s.side x).port } := State.malformed_side s x index started
  have hdev : (t.side x).dev = ((s.side x).closeMalformed index started).dev := by
    have h := congrArg SideState.dev hside; exact h
  have hstore : (t.side x).store = ((s.side x).closeMalformed index started).store := by
    have h := congrArg SideState.store hside; exact h
  have hhist : (t.side x).history = ((s.side x).closeMalformed index started).history := by
    have h := congrArg SideState.history hside; exact h
  have hfault := State.malformed_faults s x index started
  have hport := State.malformed_port s x index started
  simp only [show s.malformed x index started = t from rfl] at hport hfault
  rw [hport]
  refine ⟨rfl, rfl, rfl, rfl, rfl, rfl, fun h => ?_, fun hb hc => ?_, fun h => ?_, fun h hl => ?_, fun h => ?_, ?_,
    State.malformed_eventOf s x index started⟩
  · rw [hfault, if_pos h]
    refine ⟨by rcases h with h | h <;> simp [h], ?_, ?_⟩
    · rw [FaultTable.get_set_self]; exact FaultRecord.setAt_state _ _ _
    · simp
  · have hn : ¬ (3 ≤ satSucc (s.side x).port.badCount 255 ∨ (s.side x).port.frameCond = true) := by
      rw [hc]; simpa using hb
    rw [hfault, if_neg hn]
    exact ⟨rfl, by simpa [hc] using hb⟩
  · subst h
    rw [hdev]
    exact ⟨rfl, rfl⟩
  · subst h
    have hd := SideState.closeMalformed_discards (s.side x) index hl
    unfold SideState.DiscardsFilling at hd ⊢
    rw [hstore, hhist]
    exact hd
  · subst h
    rw [hside]
    rfl
  · refine .trans ?_ (SideState.closeMalformed_frame (s.side x) index started)
    exact congrArg (fun e : SideState =>
      { e with history := (s.side x).history, dev := (s.side x).dev, store := (s.side x).store }) hside

/-! ## Frame markers and lines that find a frame malformed -/

theorem State.frameBegin_eq (s : State) (x : Side) :
    s.frameBegin x =
      (match (s.side x).port.phase with
        | .closed => s
        | .status => s.malformed x (s.side x).port.lineCount false
        | .lines => s.malformed x ((s.side x).port.lineCount + 2) true).onSide x SideState.openStatus := rfl

/-- Settles O14, by the phase in which the marker finds the port: what opening leaves, after `State.malformed_spec`. -/
theorem frameBeginMarkerOpensAFrame : Obligations.FrameBeginMarkerOpensAFrame := by
  intro x s hr
  refine ⟨s.frameBegin x, by rw [exec_frameBeginMarker, State.take_eq _ _ hr], ?_⟩
  rw [State.frameBegin_eq]
  cases hp : (s.side x).port.phase with
  | closed =>
    simp only [State.onSide_side]
    refine ⟨rfl, rfl, rfl, rfl, rfl, fun _ => rfl, fun h => absurd rfl h, ?_, ?_, ?_, rfl, .onSide s x _ _⟩ <;> intro h <;> cases h
  | status =>
    obtain ⟨-, hbad, hgood, hidx, hstate, hfcur, hset, hkeep, -, -, hrest, hframe, hev⟩ :=
      State.malformed_spec s x (s.side x).port.lineCount false
    simp only [State.onSide_side]
    refine ⟨rfl, rfl, rfl, hstate, hfcur, ?_, fun _ => ⟨hbad, hgood, by rw [if_pos trivial]; exact hidx, hset, hkeep⟩,
      fun _ => hrest rfl, ?_, ?_, hframe, hev.thenOnSide _⟩ <;> intro h <;> cases h
  | lines =>
    obtain ⟨-, hbad, hgood, hidx, hstate, hfcur, hset, hkeep, hdev, hslots, -, hframe, hev⟩ :=
      State.malformed_spec s x ((s.side x).port.lineCount + 2) true
    simp only [State.onSide_side]
    refine ⟨rfl, rfl, rfl, hstate, hfcur, ?_, fun _ => ⟨hbad, hgood, by rw [if_neg (by simp)]; exact hidx, hset, hkeep⟩,
      ?_, fun _ => hdev rfl, fun _ => hslots rfl, hframe, hev.thenOnSide _⟩ <;> intro h <;> cases h

/-- The events that find the open frame of a port malformed (R3, R4). -/
theorem exec_malformed (x : Side) (i : Instr) (s : State) (hr : s.inReset = false)
    (h : (((∃ ws, i = .line x ws ∧ ws.length ≠ 1920) ∨ i = .frameEndMarker x) ∧ (s.side x).port.phase = .status) ∨
      ((∃ ws, i = .line x ws ∧ (ws.length ≠ 1920 ∨ 2560 ≤ (s.side x).port.lineCount)) ∧ (s.side x).port.phase = .lines) ∨
      (i = .frameEndMarker x ∧ (s.side x).port.phase = .lines ∧ (s.side x).port.lineCount ≠ 2560)) :
    ((s.side x).port.phase = .status ∧ exec i s = .next (s.malformed x (s.side x).port.lineCount false)) ∨
      ((s.side x).port.phase = .lines ∧ exec i s = .next (s.malformed x ((s.side x).port.lineCount + 2) true)) := by
  rcases h with ⟨⟨ws, rfl, hw⟩ | rfl, hp⟩ | ⟨⟨ws, rfl, hw⟩, hp⟩ | ⟨rfl, hp, hn⟩
  · refine .inl ⟨hp, ?_⟩
    rw [exec_line, State.take_eq _ _ hr]
    simp [State.receiveLine, hp, State.statusLine, hw]
  · refine .inl ⟨hp, ?_⟩
    rw [exec_frameEndMarker, State.take_eq _ _ hr]
    simp [State.frameEnd, hp]
  · refine .inr ⟨hp, ?_⟩
    rw [exec_line, State.take_eq _ _ hr]
    simp [State.receiveLine, hp, State.activeLine, hw]
  · refine .inr ⟨hp, ?_⟩
    rw [exec_frameEndMarker, State.take_eq _ _ hr]
    simp [State.frameEnd, hp, hn]

/-- Settles O17: the events named find the frame malformed, and `State.malformed_spec` says what that makes of the side. -/
theorem malformedFramesAreClosedAndCounted : Obligations.MalformedFramesAreClosedAndCounted := by
  intro x i s hr
  refine ⟨fun hp ws => ⟨?_, ?_⟩, fun h => ?_⟩
  · rw [exec_line, State.take_eq _ _ hr]
    simp [State.receiveLine, hp]
  · rw [exec_frameEndMarker, State.take_eq _ _ hr]
    simp [State.frameEnd, hp]
  · rcases exec_malformed x i s hr h with ⟨hp, he⟩ | ⟨hp, he⟩
    · obtain ⟨hphase, hbad, hgood, hidx, -, -, hset, hkeep, -, -, hrest, hframe, hev⟩ :=
        State.malformed_spec s x (s.side x).port.lineCount false
      rw [hp]
      refine ⟨_, he, hphase, hbad, hgood, by rw [if_pos rfl]; exact hidx, hset,
        fun h1 h2 => ⟨(hkeep h1 h2).1, (hkeep h1 h2).2.trans h2.symm⟩, ?_, ?_, fun _ => hrest rfl, hframe, hev⟩ <;>
        intro h <;> cases h
    · obtain ⟨hphase, hbad, hgood, hidx, -, -, hset, hkeep, hdev, hslots, -, hframe, hev⟩ :=
        State.malformed_spec s x ((s.side x).port.lineCount + 2) true
      rw [hp]
      refine ⟨_, he, hphase, hbad, hgood, by rw [if_neg (by simp)]; exact hidx, hset,
        fun h1 h2 => ⟨(hkeep h1 h2).1, (hkeep h1 h2).2.trans h2.symm⟩, fun _ => hdev rfl, fun _ => hslots rfl, ?_, hframe, hev⟩
      intro h
      cases h

/-! ## Loss expiry -/

/-- The side of a port that is LOST, before its pending commit (R9): the first part of `State.lossExpiry`. -/
def SideState.losePort (d : SideState) : SideState :=
  let d := if d.port.phase = .lines then { d.discardFrame with port := { d.port with phase := .closed } } else d
  { d with port := { d.port with state := .lost, lossCond := true } }

theorem State.lossExpiry_eq (s : State) (x : Side) :
    s.lossExpiry x =
      ((s.onSide x SideState.losePort).raise (.side .sensorLoss x) ((s.side x).port.fcur.getD 0)).swapPending x := rfl

theorem SideState.losePort_port (d : SideState) :
    d.losePort.port = { d.port with
      state := .lost, lossCond := true, phase := if d.port.phase = .lines then .closed else d.port.phase } := by
  unfold SideState.losePort
  dsimp only
  split <;> rfl

theorem SideState.losePort_of_lines {d : SideState} (h : d.port.phase = .lines) :
    { d.losePort with port := d.port } = { d.discardFrame with port := d.port } := by
  simp [SideState.losePort, h]

theorem SideState.losePort_of_not_lines {d : SideState} (h : d.port.phase ≠ .lines) : { d.losePort with port := d.port } = d := by
  simp [SideState.losePort, h]

theorem SideState.losePort_frame (d : SideState) :
    { d.losePort with port := d.port, history := d.history, dev := d.dev, store := d.store } = d := by
  by_cases h : d.port.phase = .lines
  · have hd := SideState.discardSlot_frame d
    refine (congrArg (fun e : SideState => { e with history := d.history, dev := d.dev, store := d.store })
      (SideState.losePort_of_lines h)).trans ?_
    exact congrArg (fun e : SideState => { e with port := d.port, history := d.history, dev := d.dev, store := d.store }) hd
  · exact congrArg (fun e : SideState => { e with history := d.history, dev := d.dev, store := d.store })
      (SideState.losePort_of_not_lines h)

theorem State.repliesSwapped_congr {xs : List Side} {l : Side} (hl : ∀ l, (t.link l).replies = (s.link l).replies)
    (hc : ∀ y, (t.side y).tables.commit = (s.side y).tables.commit) : t.repliesSwapped xs l = s.repliesSwapped xs l := by
  unfold State.repliesSwapped
  rw [hl]
  refine List.map_congr_left fun e _ => ?_
  cases e with
  | ready q => rfl
  | reserved tag y => dsimp only; rw [hc]

/-- The end of the condition by a swap is told from what holds before the swap of the condition alone. -/
theorem State.SwapEndsPoison.congr {u : State} (h : u.SwapEndsPoison t x)
    (hp : (u.side x).tables.poisonCond = (s.side x).tables.poisonCond)
    (hf : u.faults.get (.side .tablePoisoned x) = s.faults.get (.side .tablePoisoned x)) : s.SwapEndsPoison t x := by
  unfold State.SwapEndsPoison State.KeepsPoison at h ⊢
  rwa [hp, hf] at h

/-- Settles O20: the discard of `SideState.losePort`, the report of SENSOR_LOSS, and the swap of the pending commit. -/
theorem lossExpiryMakesThePortLost : Obligations.LossExpiryMakesThePortLost := by
  intro x s hr
  have hexec : exec (.lossExpiry x) s = .next (if s.lossDue x then s.lossExpiry x else s) := by
    rw [exec_lossExpiry, State.take_eq _ _ hr]
  refine ⟨s.lossDue_iff x, fun h => by rw [hexec, h]; rfl, fun h => ⟨s.lossExpiry x, by rw [hexec, h]; rfl, ?_⟩⟩
  have ht := State.lossExpiry_eq s x
  -- the state before the swap
  generalize hu : (s.onSide x SideState.losePort).raise (.side .sensorLoss x) ((s.side x).port.fcur.getD 0) = u at ht
  have huside : u.side x = (s.side x).losePort := by simp [← hu]
  have huother : u.side x.other = s.side x.other := by simp [← hu]
  have hulink : ∀ l, (u.link l).replies = (s.link l).replies := fun l => by simp [← hu]
  have hufaults : ∀ i, i ≠ .side .sensorLoss x → u.faults.get i = s.faults.get i := fun i hi => by
    simp [← hu, FaultTable.get_set, hi]
  have huloss : (u.faults.get (.side .sensorLoss x)).state ≠ .clear ∧
      (u.faults.get (.side .sensorLoss x)).detail = (s.side x).port.fcur.getD 0 := by
    rw [← hu, State.raise_faults, FaultTable.get_set_self]
    exact ⟨FaultRecord.setAt_state _ _ _, by simp⟩
  have hframe := SideState.losePort_frame (s.side x)
  have htabs : (s.side x).losePort.tables = (s.side x).tables := by have h := congrArg SideState.tables hframe; exact h
  have hucommit : (u.side x).tables = (s.side x).tables := by rw [huside, htabs]
  -- the swap
  have hin := State.swapPending_within u x
  have hside := State.swapPending_side u x
  rw [← ht] at hin hside
  rw [huside] at hside
  have hport : ((s.lossExpiry x).side x).port = (s.side x).losePort.port := by have h := congrArg SideState.port hside; exact h
  have hdev : ((s.lossExpiry x).side x).dev = (s.side x).losePort.dev := by have h := congrArg SideState.dev hside; exact h
  have hstore : ((s.lossExpiry x).side x).store = (s.side x).losePort.store := by have h := congrArg SideState.store hside; exact h
  have hhist : ((s.lossExpiry x).side x).history = (s.side x).losePort.history := by
    have h := congrArg SideState.history hside; exact h
  have hloss : (s.lossExpiry x).faults.get (.side .sensorLoss x) = u.faults.get (.side .sensorLoss x) := hin.faults _ (by simp)
  rw [hport, hdev, hstore, hhist, hloss, SideState.losePort_port]
  refine ⟨rfl, rfl, rfl, rfl, huloss.1, huloss.2, fun hp => ?_, fun hp hl => ?_, fun hp => ?_, ?_, fun tb => ?_, fun l => ?_,
    fun hc => ?_, fun hc => ?_, ?_, ?_, ?_, ?_, ?_, ?_, ?_⟩
  · have h := congrArg SideState.dev (SideState.losePort_of_lines hp)
    have h : (s.side x).losePort.dev = (s.side x).discardFrame.dev := h
    rw [h, if_pos hp]
    exact ⟨rfl, rfl, rfl⟩
  · have h1 := congrArg SideState.store (SideState.losePort_of_lines hp)
    have h2 := congrArg SideState.history (SideState.losePort_of_lines hp)
    have hd := SideState.discardSlot_discards (s.side x) hl.1
    unfold SideState.DiscardsFilling at hd ⊢
    rw [hstore, hhist, h1, h2]
    exact hd
  · have h := SideState.losePort_of_not_lines hp
    rw [if_neg hp]
    exact ⟨by have g := congrArg SideState.dev h; exact g, by have g := congrArg SideState.store h; exact g,
      by have g := congrArg SideState.history h; exact g, rfl⟩
  · rw [ht]; exact State.swapPending_commit u x
  · rw [ht, State.swapPending_ctl, hucommit]
  · rw [ht, State.swapPending_replies]
    refine State.repliesSwapped_congr hulink fun y => ?_
    rcases Side.eq_or_eq_other x y with rfl | rfl
    · rw [hucommit]
    · rw [huother]
  · rw [ht, State.swapPending_none (by rw [hucommit]; exact hc)]
    exact ⟨by rw [hucommit], hufaults _ (by simp)⟩
  · obtain ⟨c, hc⟩ := Option.ne_none_iff_exists'.mp hc
    rw [ht, State.swapPending_some (by rw [hucommit]; exact hc)]
    exact (State.swapSet_endsPoison u x c).congr (by rw [hucommit]) (hufaults _ (by simp))
  · rw [ht, ← hucommit]; exact State.swapPending_tables u x
  · have h := congrArg SideState.exposure hside; have g := congrArg SideState.exposure hframe; exact h.trans g
  · have h := congrArg SideState.bus hside; have g := congrArg SideState.bus hframe; exact h.trans g
  · have h := congrArg SideState.comp hside; have g := congrArg SideState.comp hframe; exact h.trans g
  · exact hin.other.trans huother
  · rw [hin.frameStore, ← hu]; simp
  · rw [ht, State.swapPending_tableStore, ← hu]; simp

end Sys2Proof.Machine
end

section
/-! The sensor bus: the device address of an attempt, the attempts that follow one another, responses and the response timer (R16 to R22,
R40 to R42). -/

namespace Sys2Proof.Machine

variable {s t u : State} {x : Side}

/-! ## One read of the table store -/

/-- The bits that a read of a table word takes, and the injection that the read leaves (R172). -/
theorem State.TableReads.eq {addr : Nat} {w : BitVec 22} {after : Option Injection} (h : s.TableReads addr w after) :
    w = asRead (takeInjection s.tableStore.injection addr).1 (Mem.read tableDefault s.tableStore.mem addr) ∧
      after = (takeInjection s.tableStore.injection addr).2 := by
  rcases h with ⟨hj, rfl, rfl⟩ | ⟨i, hj, ⟨ht, rfl, rfl⟩ | ⟨⟨a, ht, ha⟩, rfl, rfl⟩ | ⟨⟨n, ht, hn⟩, rfl, rfl⟩⟩
  · simp [takeInjection, hj, asRead]
  · have flips : ∀ k : InjKind, k.flips 22 = if k = .single then 8 else 40 := fun k => by cases k <;> decide
    rcases ht with ht | ht <;> simp [takeInjection, hj, ht, asRead, flips]
  · simp [takeInjection, hj, ht, ha, asRead]
  · simp [takeInjection, hj, ht, Ne.symm hn, asRead]

/-- What a read of a table word delivers, and the injection it leaves (R156, R172). -/
theorem State.readTableWord_delivers (s : State) (x : Side) (addr : Nat) :
    (s.readTableWord x addr).1 =
        delivered 5 16 (asRead (takeInjection s.tableStore.injection addr).1 (Mem.read tableDefault s.tableStore.mem addr)) ∧
      (s.readTableWord x addr).2.tableStore.injection = (takeInjection s.tableStore.injection addr).2 ∧
      (s.readTableWord x addr).2.sides = s.sides := by
  unfold State.readTableWord delivered
  dsimp only
  cases checkWord 5 (asRead (takeInjection s.tableStore.injection addr).1 (Mem.read tableDefault s.tableStore.mem addr)) <;>
    simp [State.reportCorrected, State.offerTable, State.writeTableWords]

@[simp] theorem State.readTableWord_side (s : State) (x y : Side) (addr : Nat) : (s.readTableWord x addr).2.side y = s.side y := by
  rw [State.side, State.side, (s.readTableWord_delivers x addr).2.2]

@[simp] theorem TableCtl.poisonAt_bad_of_none {c : TableCtl} {p : PhysBank} (j : Nat) (h : c.bad p = none) :
    (c.poisonAt p j).bad p = some j := by
  simp [TableCtl.poisonAt, h, TableCtl.bad_setBad]

/-- A setting of TABLE_POISONED (R164). -/
theorem State.raisePoison_spec (s : State) (x : Side) (d : Nat) :
    ((s.raisePoison x d).side x).tables = { (s.side x).tables with poisonCond := true } ∧
    ((s.raisePoison x d).faults.get (.side .tablePoisoned x)).state ≠ .clear ∧
    ((s.raisePoison x d).faults.get (.side .tablePoisoned x)).detail = wordOf d ∧
    (s.raisePoison x d).tableStore = s.tableStore := by
  unfold State.raisePoison
  refine ⟨by simp, ?_, by simp, by simp⟩
  rw [State.raise_faults, FaultTable.get_set_self]
  exact FaultRecord.setAt_state _ _ _

/-! ## The device address (R18, R156, R164) -/

theorem romSensor_device : deviceOf (romSensor.getD 0 0) = 0x2C := by decide

/-- A poisoned active SENSOR bank gives the ROM default's address. -/
theorem State.deviceAddress_poisoned {j : Nat}
    (h : (s.side x).tables.ctl.sensor.bad (s.side x).tables.ctl.sensor.active = some j) : s.deviceAddress x = (0x2C, s) := by
  simp only [State.deviceAddress, h, romSensor_device]

/-- A word that the active SENSOR bank delivers gives its address. -/
theorem State.deviceAddress_read {v : Word} (h : (s.side x).tables.ctl.sensor.bad (s.side x).tables.ctl.sensor.active = none)
    (hv : (s.readTableWord x (tableAddr x .sensor (s.side x).tables.ctl.sensor.active 0)).1 = some v) :
    s.deviceAddress x = (deviceOf v, (s.readTableWord x (tableAddr x .sensor (s.side x).tables.ctl.sensor.active 0)).2) := by
  simp only [State.deviceAddress, h, State.readBankWord_eq, hv]

/-- An uncorrectable word poisons the bank, and the ROM default's address is taken. -/
theorem State.deviceAddress_lost (h : (s.side x).tables.ctl.sensor.bad (s.side x).tables.ctl.sensor.active = none)
    (hv : (s.readTableWord x (tableAddr x .sensor (s.side x).tables.ctl.sensor.active 0)).1 = none) :
    s.deviceAddress x =
      (0x2C, ((s.readTableWord x (tableAddr x .sensor (s.side x).tables.ctl.sensor.active 0)).2.onSide x (fun d =>
        { d with tables := { d.tables with
          ctl := d.tables.ctl.set .sensor
            ((s.side x).tables.ctl.sensor.poisonAt (s.side x).tables.ctl.sensor.active 0) } })).raisePoison x 12) := by
  have hget : (s.side x).tables.ctl.get .sensor = (s.side x).tables.ctl.sensor := rfl
  simp only [State.deviceAddress, h, State.readBankWord_eq, hv, romSensor_device, State.readTableWord_side, hget, if_pos]
  rfl

/-- The state after the device address is read, and the address, in the words of `State.OpensAttempt`. -/
theorem State.deviceAddress_spec (s : State) (x : Side) (c : TableCtl) (hc : c = (s.side x).tables.ctl.sensor) :
    (c.bad c.active ≠ none → (s.deviceAddress x).1 = 0x2C ∧ (s.deviceAddress x).2.tableStore = s.tableStore) ∧
    (c.bad c.active = none → ∀ w after, s.TableReads (tableAddr x .sensor c.active 0) w after →
      (s.deviceAddress x).2.tableStore.injection = after ∧
      (∀ v : Word, delivered 5 16 w = some v → (s.deviceAddress x).1 = v.extractLsb' 8 8 ∧
        ((s.deviceAddress x).2.side x).tables = (s.side x).tables) ∧
      ((delivered 5 16 w : Option Word) = none → (s.deviceAddress x).1 = 0x2C ∧
        (((s.deviceAddress x).2.side x).tables.ctl.sensor).bad c.active = some 0 ∧
        ((s.deviceAddress x).2.side x).tables.poisonCond = true ∧
        ((s.deviceAddress x).2.faults.get (.side .tablePoisoned x)).state ≠ .clear ∧
        ((s.deviceAddress x).2.faults.get (.side .tablePoisoned x)).detail = 12)) := by
  subst hc
  refine ⟨fun hb => ?_, fun hb w after hw => ?_⟩
  · obtain ⟨j, hj⟩ := Option.ne_none_iff_exists'.mp hb
    rw [State.deviceAddress_poisoned hj]
    exact ⟨rfl, rfl⟩
  · obtain ⟨rfl, rfl⟩ := hw.eq
    obtain ⟨hread, hinj, -⟩ := s.readTableWord_delivers x (tableAddr x .sensor (s.side x).tables.ctl.sensor.active 0)
    rw [← hread]
    cases hv : (s.readTableWord x (tableAddr x .sensor (s.side x).tables.ctl.sensor.active 0)).1 with
    | some v =>
      rw [State.deviceAddress_read hb hv]
      refine ⟨hinj, fun w hw => ?_, fun h => (by cases h)⟩
      cases hw
      exact ⟨rfl, by simp⟩
    | none =>
      rw [State.deviceAddress_lost hb hv]
      obtain ⟨htab, hset, hdet, hst⟩ := State.raisePoison_spec
        ((s.readTableWord x (tableAddr x .sensor (s.side x).tables.ctl.sensor.active 0)).2.onSide x (fun d =>
          { d with tables := { d.tables with
            ctl := d.tables.ctl.set .sensor
              ((s.side x).tables.ctl.sensor.poisonAt (s.side x).tables.ctl.sensor.active 0) } })) x 12
      refine ⟨?_, fun w hw => (by cases hw), fun _ => ⟨rfl, ?_, ?_, hset, hdet⟩⟩
      · rw [hst, ← hinj]; rfl
      · rw [htab]
        simp [PerTable.set, hb]
      · rw [htab]

/-! ## Attempts (R18) -/

/-- An attempt that is opened is opened as R18 says. -/
theorem State.openAttempt_opens (s : State) (x : Side) (e : WriteEntry) : s.OpensAttempt (s.openAttempt x e) x e := by
  refine ⟨(s.deviceAddress x).1, s.openAttempt_opened x e, by rw [State.openAttempt_bus], fun c hc => ?_⟩
  have htab : ((s.openAttempt x e).side x).tables = ((s.deviceAddress x).2.side x).tables := by
    simp [State.openAttempt, State.side]
  rw [htab]
  exact State.deviceAddress_spec s x c hc

/-- Whether an attempt is opened is told from the count of transactions, the table store and the tables of the side before it. -/
theorem State.OpensAttempt.congr {e : WriteEntry} (h : u.OpensAttempt t x e) (ho : u.opened = s.opened)
    (hs : u.tableStore = s.tableStore) (ht : (u.side x).tables = (s.side x).tables) : s.OpensAttempt t x e := by
  unfold State.OpensAttempt State.TableReads at h ⊢
  rwa [ho, hs, ht] at h

/-! What a change of the bus leaves, by name. -/

theorem State.BusFrame.side (h : s.BusFrame t x) :
    { t.side x with bus := (s.side x).bus, tables := (s.side x).tables } = s.side x := by
  have g := congrArg (fun d : SideState => { d with bus := (s.side x).bus, tables := (s.side x).tables }) h.tables.side
  simp only [State.side, Sided.get_set_self] at g ⊢
  exact g

theorem State.BusFrame.other (h : s.BusFrame t x) : t.side x.other = s.side x.other := by
  simpa [State.side] using h.tables.other

theorem State.BusFrame.exposure (h : s.BusFrame t x) : (t.side x).exposure = (s.side x).exposure := by
  have g := congrArg SideState.exposure h.side; exact g

theorem State.BusFrame.frameStore (h : s.BusFrame t x) : t.frameStore = s.frameStore := h.tables.frameStore

theorem State.BusFrame.inReset (h : s.BusFrame t x) : t.inReset = s.inReset := h.tables.inReset

theorem State.BusFrame.tick (h : s.BusFrame t x) : t.tick = s.tick := h.tables.tick

theorem State.BusFrame.artic (h : s.BusFrame t x) : t.artic = s.artic := h.tables.artic

theorem State.BusFrame.locks (h : s.BusFrame t x) : t.locks = s.locks := h.tables.locks

theorem State.BusFrame.replies (h : s.BusFrame t x) (l : Side) : (t.link l).replies = (s.link l).replies := h.tables.link_replies l

theorem State.BusFrame.faults (h : s.BusFrame t x) {i : RecordId} (h1 : i ≠ .part .errorCorrected)
    (h2 : i ≠ .side .tablePoisoned x) : t.faults.get i = s.faults.get i := h.tables.faults i h1 h2

/-- The queued entries of a buffer in which the head's group is marked as sent. -/
theorem asQueued_markHead (n : WriteEntry) (more : List WriteEntry) :
    (if n.sent then n :: more else markSent n.group (n :: more)).map WriteEntry.asQueued = (n :: more).map WriteEntry.asQueued := by
  split
  · rfl
  · exact markSent_fields _ _

/-- An IDLE bus with entries waiting opens the first attempt on the first of them. -/
theorem State.startAttempt_opens (n : WriteEntry) (more : List WriteEntry) (hi : (s.side x).bus.state = .idle)
    (hb : (s.side x).bus.buffer = n :: more) : s.OpensAttempt (s.startAttempt x) x n := by
  have he : s.startAttempt x = (s.onSide x (fun d =>
      { d with bus := { d.bus with
          buffer := if n.sent then d.bus.buffer else markSent n.group d.bus.buffer,
          attempts := 1 } })).openAttempt x n := by
    simp only [State.startAttempt, hi, hb]
  rw [he]
  exact (State.openAttempt_opens _ x n).congr rfl rfl (by simp)

/-- What the start of an attempt makes of the bus, whatever it finds. -/
theorem State.startAttempt_keeps (s : State) (x : Side) :
    ((s.startAttempt x).side x).bus.buffer.map WriteEntry.asQueued = (s.side x).bus.buffer.map WriteEntry.asQueued ∧
    ((s.startAttempt x).side x).bus.finishing = (s.side x).bus.finishing ∧
    ((s.startAttempt x).side x).bus.busCond = (s.side x).bus.busCond ∧
    ((s.startAttempt x).side x).bus.groupCounter = (s.side x).bus.groupCounter := by
  cases hi : (s.side x).bus.state with
  | sending => rw [State.startAttempt_sending s x hi]; exact ⟨rfl, rfl, rfl, rfl⟩
  | idle =>
    cases hb : (s.side x).bus.buffer with
    | nil => rw [State.startAttempt_empty s x hb, hb]; exact ⟨rfl, rfl, rfl, rfl⟩
    | cons n more =>
      obtain ⟨device, h⟩ := State.startAttempt_bus s x n more hi hb
      rw [h]
      exact ⟨asQueued_markHead n more, rfl, rfl, rfl⟩

/-- With a bus that is IDLE as it should be, the start of an attempt goes on with what is left (R18). -/
theorem State.startAttempt_goesOn {rest : List WriteEntry} (hi : (s.side x).bus.state = .idle)
    (ht : (s.side x).bus.transaction = none) (ha : (s.side x).bus.attempts = 0) (hb : (s.side x).bus.buffer = rest) :
    ((s.startAttempt x).side x).bus.GoesOn rest s.tick := by
  refine ⟨fun h => ?_, fun n more h => ?_⟩
  · rw [State.startAttempt_empty s x (hb.trans h)]
    exact ⟨hi, ht, ha⟩
  · obtain ⟨device, g⟩ := State.startAttempt_bus s x n more hi (hb.trans h)
    rw [g]
    exact ⟨rfl, rfl, rfl, rfl⟩

/-! ## The end of an attempt (R19 to R22) -/

/-- Either outcome of the attempt on a head that a side restart left to finish (R22). -/
theorem State.finishHead_finishes {e : WriteEntry} {rest : List WriteEntry} (hb : (s.side x).bus.buffer = e :: rest) :
    s.HeadFinishes (s.finishHead x) x rest := by
  obtain ⟨u, hu⟩ : ∃ u, u = s.onSide x (fun d => { d with bus := d.bus.closed (d.bus.buffer.drop 1) }) := ⟨_, rfl⟩
  have hbus : (u.side x).bus = (s.side x).bus.closed rest := by simp [hu, hb]
  have he : s.finishHead x = u.startAttempt x := by rw [hu]; rfl
  have hf := State.startAttempt_frame u x
  obtain ⟨hbuf, hfin, hcond, -⟩ := State.startAttempt_keeps u x
  rw [he]
  refine ⟨?_, ?_, ?_, fun n more hn => ?_, ?_, ?_, ?_⟩
  · rw [hbuf, hbus]; rfl
  · rw [hfin, hbus]; rfl
  · have h := State.startAttempt_goesOn (s := u) (x := x) (rest := rest) (by rw [hbus]; rfl) (by rw [hbus]; rfl)
      (by rw [hbus]; rfl) (by rw [hbus]; rfl)
    rwa [show u.tick = s.tick by simp [hu]] at h
  · exact (State.startAttempt_opens n more (by rw [hbus]; rfl) (by rw [hbus]; exact hn)).congr (by simp [hu]) (by simp [hu])
      (by simp [hu])
  · rw [hf.exposure]; simp [hu]
  · rw [hcond, hbus]; rfl
  · rw [hf.faults (by simp) (by simp)]; simp [hu]

theorem State.finishHead_frame (s : State) (x : Side) :
    (s.finishHead x).side x.other = s.side x.other ∧ (s.finishHead x).frameStore = s.frameStore := by
  have h := State.startAttempt_frame (s.onSide x (fun d => { d with bus := d.bus.closed (d.bus.buffer.drop 1) })) x
  exact ⟨h.other.trans (by simp), h.frameStore⟩

/-- The exposure unit after a group is acknowledged (R40, R41): without a frame number seen, or with the latency that puts the record into
force. -/
def Exposure.acknowledged (e : Exposure) (fcur : Option FrameNo) (nLat : Nat) (g : BitVec 8) : Exposure :=
  match e.outstanding.find? (fun o => decide (o.group = g)) with
  | none => e
  | some o =>
    let rest := e.outstanding.filter (fun p => !decide (p.group = g))
    match fcur with
    | none => { e with outstanding := rest }
    | some f =>
      { e with
        outstanding := rest,
        pendingQueue := joinPending e.pendingQueue { target := f + BitVec.ofNat 16 nLat, record := o.record } }

theorem State.onSide_of_eq {f : SideState → SideState} (h : f (s.side x) = s.side x) : s.onSide x f = s := by
  have h : f (s.sides.get x) = s.sides.get x := h
  simp [State.onSide, h]

theorem State.groupAcknowledged_eq (s : State) (x : Side) (g : BitVec 8) :
    s.groupAcknowledged x g =
      s.onSide x (fun d => { d with exposure := d.exposure.acknowledged d.port.fcur (s.sensorOf x).nLat g }) := by
  cases hf : (s.side x).exposure.outstanding.find? (fun o => decide (o.group = g)) with
  | none =>
    rw [State.onSide_of_eq (by simp only [Exposure.acknowledged, hf])]
    simp only [State.groupAcknowledged, hf]
  | some o =>
    cases hc : (s.side x).port.fcur with
    | none =>
      simp only [State.groupAcknowledged, hf, hc]
      simp only [State.side] at hf hc
      simp only [State.onSide, Exposure.acknowledged, hf, hc]
      rfl
    | some f =>
      simp only [State.groupAcknowledged, hf, hc]
      simp only [State.side] at hf hc
      simp only [State.onSide, Exposure.acknowledged, hf, hc]
      rfl

theorem Exposure.acknowledged_of_none {e : Exposure} {g : BitVec 8} (fcur : Option FrameNo) (nLat : Nat)
    (h : e.outstanding.find? (fun o => decide (o.group = g)) = none) : e.acknowledged fcur nLat g = e := by
  simp [Exposure.acknowledged, h]

/-- No item of the group is left (R40). -/
theorem Exposure.acknowledged_outstanding (e : Exposure) (fcur : Option FrameNo) (nLat : Nat) (g : BitVec 8) :
    ∀ o ∈ (e.acknowledged fcur nLat g).outstanding, o.group ≠ g := by
  unfold Exposure.acknowledged
  cases h : e.outstanding.find? (fun o => decide (o.group = g)) with
  | none => simpa using h
  | some o => cases fcur <;> simp

theorem State.endSensorBus_side (s : State) (x : Side) :
    (s.endSensorBus x).side x = { s.side x with bus := { (s.side x).bus with busCond := false } } := by
  unfold State.endSensorBus
  split
  · simp
  · next h =>
    have h : (s.side x).bus.busCond = false := by simpa using h
    rw [← h]

theorem State.endSensorBus_within (s : State) (x : Side) : s.Within (s.endSensorBus x) x [.side .sensorBus x] := by
  unfold State.endSensorBus
  split
  · exact (State.Within.onSide s x _ _).endFault (by simp)
  · exact .refl s x _

@[simp] theorem State.endSensorBus_tableStore (s : State) (x : Side) : (s.endSensorBus x).tableStore = s.tableStore := by
  unfold State.endSensorBus
  split <;> simp

/-- SENSOR_BUS is ended where it is in force, and stays as it is elsewhere (R21). -/
theorem State.endSensorBus_fault (s : State) (x : Side) :
    ((s.side x).bus.busCond = true → ((s.endSensorBus x).faults.get (.side .sensorBus x)).state = .clear) ∧
    ((s.side x).bus.busCond = false →
      (s.endSensorBus x).faults.get (.side .sensorBus x) = s.faults.get (.side .sensorBus x)) := by
  refine ⟨fun h => ?_, fun h => ?_⟩ <;> simp [State.endSensorBus, h]

/-! ## Acknowledged writes (R19, R21, R40, R41) -/

/-- The head of the buffer is the last entry of its group. -/
def lastOfGroup (e : WriteEntry) : List WriteEntry → Bool
  | [] => true
  | n :: _ => !decide (n.group = e.group)

theorem lastOfGroup_iff (e : WriteEntry) (rest : List WriteEntry) :
    lastOfGroup e rest = true ↔ ∀ n more, rest = n :: more → n.group ≠ e.group := by
  cases rest with
  | nil => simp [lastOfGroup]
  | cons n more => simp [lastOfGroup]

/-- The report of the last entry of an exposure group (R40). -/
def State.reportAck (s : State) (x : Side) (e : WriteEntry) (rest : List WriteEntry) : State :=
  if e.origin = .exposure ∧ lastOfGroup e rest = true then (s.groupAcknowledged x e.group).endSensorBus x else s

theorem State.attemptAcked_eq {e : WriteEntry} {rest : List WriteEntry} (hb : (s.side x).bus.buffer = e :: rest)
    (hf : (s.side x).bus.finishing = false) :
    s.attemptAcked x =
      ((s.onSide x (fun d => { d with bus := d.bus.closed rest })).reportAck x e rest).startAttempt x := by
  cases rest <;> simp [State.attemptAcked, hb, hf, State.reportAck, lastOfGroup]

theorem State.attemptAcked_finishing {e : WriteEntry} {rest : List WriteEntry} (hb : (s.side x).bus.buffer = e :: rest)
    (hf : (s.side x).bus.finishing = true) : s.attemptAcked x = s.finishHead x := by
  simp [State.attemptAcked, hb, hf]

theorem State.attemptFailed_finishing {e : WriteEntry} {rest : List WriteEntry} (hb : (s.side x).bus.buffer = e :: rest)
    (hf : (s.side x).bus.finishing = true) : s.attemptFailed x = s.finishHead x := by
  simp [State.attemptFailed, hb, hf]

/-- What the report of an acknowledged group leaves: all but the exposure unit, bus_cond and SENSOR_BUS. -/
theorem State.reportAck_frame (s : State) (x : Side) (e : WriteEntry) (rest : List WriteEntry) :
    s.Within (s.reportAck x e rest) x [.side .sensorBus x] ∧ (s.reportAck x e rest).tableStore = s.tableStore ∧
    { (s.reportAck x e rest).side x with bus := (s.side x).bus, exposure := (s.side x).exposure } = s.side x ∧
    { ((s.reportAck x e rest).side x).bus with busCond := (s.side x).bus.busCond } = (s.side x).bus := by
  unfold State.reportAck
  split
  · rw [State.groupAcknowledged_eq]
    exact ⟨(State.Within.onSide s x _ _).trans (State.endSensorBus_within _ x), by simp, by simp [State.endSensorBus_side],
      by simp [State.endSensorBus_side]⟩
  · exact ⟨.refl s x _, rfl, rfl, rfl⟩

/-- The exposure unit, bus_cond and SENSOR_BUS after the last write of an exposure group (R21, R40, R41). -/
theorem State.reportAck_last {e : WriteEntry} {rest : List WriteEntry} (h : e.origin = .exposure ∧ lastOfGroup e rest = true) :
    ((s.reportAck x e rest).side x).exposure =
      (s.side x).exposure.acknowledged (s.side x).port.fcur (s.sensorOf x).nLat e.group ∧
    ((s.reportAck x e rest).side x).bus.busCond = false ∧
    ((s.side x).bus.busCond = true → ((s.reportAck x e rest).faults.get (.side .sensorBus x)).state = .clear) ∧
    ((s.side x).bus.busCond = false →
      (s.reportAck x e rest).faults.get (.side .sensorBus x) = s.faults.get (.side .sensorBus x)) := by
  rw [State.reportAck, if_pos h, State.groupAcknowledged_eq]
  have hf := State.endSensorBus_fault
    (s.onSide x (fun d => { d with exposure := d.exposure.acknowledged d.port.fcur (s.sensorOf x).nLat e.group })) x
  simp only [State.onSide_side, State.onSide_faults] at hf
  exact ⟨by simp [State.endSensorBus_side], by simp [State.endSensorBus_side], hf⟩

theorem State.reportAck_not_last {e : WriteEntry} {rest : List WriteEntry}
    (h : ¬ (e.origin = .exposure ∧ lastOfGroup e rest = true)) : s.reportAck x e rest = s := by
  rw [State.reportAck, if_neg h]

/-- A response to no open transaction is discarded (R19). -/
theorem exec_response_discarded (x : Side) (n : Nat) (ack : Bool)
    (h : (s.side x).bus.state = .idle ∨ (s.side x).bus.transaction.map Transaction.number ≠ some n) :
    exec (.sensorBusResponse x ⟨n, ack⟩) s = .next s := by
  have hw : (s.side x).bus.awaits n = false := by
    rcases h with h | h <;> simp [Bus.awaits, h]
  rw [exec_sensorBusResponse]
  cases hr : s.inReset with
  | true => exact State.take_inReset _ _ hr
  | false => rw [State.take_eq _ _ hr]; simp [State.busResponse, hw]

theorem exec_response_taken (x : Side) (k : Nat) (ack : Bool) (hr : s.inReset = false) (hs : (s.side x).bus.state = .sending)
    (hk : (s.side x).bus.transaction.map Transaction.number = some k) :
    exec (.sensorBusResponse x ⟨k, ack⟩) s = .next (if ack then s.attemptAcked x else s.attemptFailed x) := by
  rw [exec_sensorBusResponse, State.take_eq _ _ hr]
  simp [State.busResponse, Bus.awaits, hs, hk]

/-- Settles O21: the head leaves, `State.reportAck` says what becomes of its group, and the next attempt starts. -/
theorem acknowledgedWriteLeavesTheBuffer : Obligations.AcknowledgedWriteLeavesTheBuffer := by
  intro x s hr
  refine ⟨fun n ack h => exec_response_discarded x n ack h, fun k e rest hs hk hb => ⟨fun hf ack => ?_, fun hf => ?_⟩⟩
  · refine ⟨s.finishHead x, ?_, State.finishHead_finishes hb, State.finishHead_frame s x⟩
    rw [exec_response_taken x k ack hr hs hk, State.attemptAcked_finishing hb hf, State.attemptFailed_finishing hb hf, ite_self]
  · refine ⟨s.attemptAcked x, exec_response_taken x k true hr hs hk, ?_⟩
    rw [State.attemptAcked_eq hb hf]
    -- the head has left
    obtain ⟨u, hu⟩ : ∃ u, u = s.onSide x (fun d => { d with bus := d.bus.closed rest }) := ⟨_, rfl⟩
    rw [← hu]
    have husd : u.side x = { s.side x with bus := (s.side x).bus.closed rest } := by simp [hu]
    -- its group is reported
    obtain ⟨hin, hts, hside, hbus⟩ := State.reportAck_frame u x e rest
    obtain ⟨hgbuf, hgfin, hgcond, -⟩ := State.startAttempt_keeps (u.reportAck x e rest) x
    have hf := State.startAttempt_frame (u.reportAck x e rest) x
    have hbuf : ((u.reportAck x e rest).side x).bus.buffer = rest := by
      have h := congrArg Bus.buffer hbus; rw [husd] at h; exact h
    have hst : ((u.reportAck x e rest).side x).bus.state = .idle := by
      have h := congrArg Bus.state hbus; rw [husd] at h; exact h
    have htr : ((u.reportAck x e rest).side x).bus.transaction = none := by
      have h := congrArg Bus.transaction hbus; rw [husd] at h; exact h
    have hat : ((u.reportAck x e rest).side x).bus.attempts = 0 := by
      have h := congrArg Bus.attempts hbus; rw [husd] at h; exact h
    have htick : (u.reportAck x e rest).tick = s.tick := by rw [hin.tick, hu]; rfl
    have hgo := State.startAttempt_goesOn hst htr hat hbuf
    rw [htick] at hgo
    have hopen : ∀ n more, rest = n :: more → s.OpensAttempt ((u.reportAck x e rest).startAttempt x) x n := fun n more hn => by
      refine (State.startAttempt_opens n more hst (hbuf.trans hn)).congr ?_ ?_ ?_
      · rw [hin.opened, hu]; rfl
      · rw [hts, hu]; rfl
      · have h := congrArg SideState.tables hside; rw [husd] at h; exact h
    have hsen : u.sensorOf x = s.sensorOf x := by simp [State.sensorOf, State.copies, husd]
    have hfault := hf.faults (i := .side .sensorBus x) (by simp) (by simp)
    refine ⟨hgbuf.trans (by rw [hbuf]; rfl), hgo.1, fun n more hn => ?_, fun h => ?_, fun ho hl => ?_, ?_, ?_⟩
    · obtain ⟨h1, h2, h3, h4⟩ := hgo.2 n more hn
      exact ⟨h1, h2, h4, h3, hopen n more hn⟩
    · have hn : ¬ (e.origin = .exposure ∧ lastOfGroup e rest = true) := by
        rintro ⟨ho, hl⟩
        rcases h with h | ⟨n, more, rfl, hg⟩
        · rw [h] at ho; cases ho
        · exact (lastOfGroup_iff e _).mp hl n more rfl hg
      rw [hf.exposure, hgcond, hfault, State.reportAck_not_last hn, husd]
      exact ⟨rfl, rfl, by rw [hu]; rfl⟩
    · obtain ⟨hexp, hcond, hend, hkeep⟩ := State.reportAck_last (s := u) (x := x) ⟨ho, (lastOfGroup_iff e rest).mpr hl⟩
      rw [hsen] at hexp
      rw [hf.exposure, hgcond, hfault, hexp, husd]
      refine ⟨hcond, fun h => hend (by rw [husd]; exact h), fun h => ?_, Exposure.acknowledged_outstanding _ _ _ _, ?_⟩
      · rw [hkeep (by rw [husd]; exact h), hu]; rfl
      · rintro v others rfl rfl
        refine ⟨fun h => Exposure.acknowledged_of_none _ _ h, fun o ho => ⟨fun hc => ?_, ?_⟩⟩
        · simp [Exposure.acknowledged, ho, hc]
        · rintro f new kept hc rfl hkept
          have hjoin := joinPending_eq (s.side x).exposure.pendingQueue kept
            { target := f + BitVec.ofNat 16 (s.sensorOf x).nLat, record := o.record } (by simpa [Bool.not_or] using hkept)
          refine ⟨fun h => ?_, fun h => ?_⟩
          · simp [Exposure.acknowledged, ho, hc, hjoin.1 h]
          · simp [Exposure.acknowledged, ho, hc, hjoin.2 h]
    · rw [hf.other, hin.other, hu]; simp
    · rw [hf.frameStore, hin.frameStore, hu]; rfl

end Sys2Proof.Machine
end

section
/-! Failed attempts and writes queued by directive (R15 to R22, R42, R205). -/

namespace Sys2Proof.Machine

variable {s t u : State} {x : Side}

/-! ## Failed attempts (R19 to R22, R42) -/

/-- What is left behind a head whose attempts have all failed: the rest, without the entries of the head's exposure group (R20). -/
def remaining (e : WriteEntry) (rest : List WriteEntry) : List WriteEntry :=
  rest.filter (fun w => decide (e.origin = .service ∨ w.group ≠ e.group))

/-- The side after the third attempt on the head has failed: the entries of its group are dropped, and its item (R20, R42). -/
def SideState.dropHead (d : SideState) (e : WriteEntry) (rest : List WriteEntry) : SideState :=
  { d with
    bus := { d.bus.closed (remaining e rest) with busCond := true },
    exposure := match e.origin with
      | .exposure =>
        { d.exposure with outstanding := d.exposure.outstanding.filter (fun o => decide (o.group ≠ e.group)) }
      | .service => d.exposure }

theorem State.attemptFailed_third {e : WriteEntry} {rest : List WriteEntry} (hb : (s.side x).bus.buffer = e :: rest)
    (hf : (s.side x).bus.finishing = false) (ha : 3 ≤ (s.side x).bus.attempts) :
    s.attemptFailed x = ((s.onSide x (fun d => d.dropHead e rest)).raise (.side .sensorBus x) e.register).startAttempt x := by
  have hn : ¬ (s.side x).bus.attempts < 3 := by omega
  have hset : ∀ f : SideState → SideState, s.onSide x f = { s with sides := s.sides.set x (f (s.side x)) } := fun _ => rfl
  simp only [State.attemptFailed, hb, hf, Bool.false_eq_true, if_false, if_neg hn, State.writeFailed]
  cases ho : e.origin with
  | service => simp [SideState.dropHead, remaining, ho, hset]
  | exposure => simp [SideState.dropHead, remaining, ho, State.groupAbandoned, State.onSide]

theorem State.attemptFailed_again {e : WriteEntry} {rest : List WriteEntry} (hb : (s.side x).bus.buffer = e :: rest)
    (hf : (s.side x).bus.finishing = false) (ha : (s.side x).bus.attempts < 3) :
    s.attemptFailed x =
      (s.onSide x (fun d => { d with bus := { d.bus with attempts := d.bus.attempts + 1 } })).openAttempt x e := by
  simp [State.attemptFailed, hb, hf, ha]

/-- A failed attempt ends as R20, R22 and R42 say. -/
theorem State.attemptFailed_fails {e : WriteEntry} {rest : List WriteEntry} (hb : (s.side x).bus.buffer = e :: rest) : s.FailsAttempt (s.attemptFailed x) x e rest := by
  refine ⟨fun hf => ?_, fun hf ha => ?_, fun left hf ha hl => ?_, ?_⟩
  · rw [State.attemptFailed_finishing hb hf]
    exact State.finishHead_finishes hb
  · rw [State.attemptFailed_again hb hf ha]
    have hframe := State.openAttempt_frame (s.onSide x (fun d => { d with bus := { d.bus with attempts := d.bus.attempts + 1 } })) x e
    rw [hframe.exposure, State.openAttempt_bus]
    rw [State.onSide_side]
    exact ⟨rfl, hb, rfl, rfl, (State.openAttempt_opens _ x e).congr rfl rfl (by simp), rfl, rfl, rfl⟩
  · have hleft : left = remaining e rest := hl
    subst hleft
    rw [State.attemptFailed_third hb hf ha]
    obtain ⟨u, hu⟩ : ∃ u, u = (s.onSide x (fun d => d.dropHead e rest)).raise (.side .sensorBus x) e.register := ⟨_, rfl⟩
    rw [← hu]
    have hside : u.side x = (s.side x).dropHead e rest := by simp [hu]
    have hbus : (u.side x).bus = { (s.side x).bus.closed (remaining e rest) with busCond := true } := by rw [hside]; rfl
    have hframe := State.startAttempt_frame u x
    obtain ⟨hkbuf, -, hkcond, -⟩ := State.startAttempt_keeps u x
    have hfault := hframe.faults (i := .side .sensorBus x) (by simp) (by simp)
    have hgo := State.startAttempt_goesOn (s := u) (x := x) (rest := remaining e rest) (by rw [hbus]; rfl) (by rw [hbus]; rfl)
      (by rw [hbus]; rfl) (by rw [hbus]; rfl)
    rw [show u.tick = s.tick by simp [hu]] at hgo
    rw [hkcond, hfault, hkbuf, hframe.exposure, hbus, hside]
    refine ⟨rfl, ?_, ?_, rfl, hgo, fun n more hn => ?_, fun ho => ?_, fun ho => ?_⟩
    · rw [hu, State.raise_faults, FaultTable.get_set_self]; exact FaultRecord.setAt_state _ _ _
    · rw [hu, State.raise_faults, FaultTable.get_set_self]; exact FaultRecord.setAt_detail _ _ _
    · exact (State.startAttempt_opens n more (by rw [hbus]; rfl) (by rw [hbus]; exact hn)).congr (by simp [hu]) (by simp [hu])
        (by rw [hside]; rfl)
    · simp only [SideState.dropHead, ho]
    · simp only [SideState.dropHead, ho]
  · by_cases hf : (s.side x).bus.finishing = true
    · rw [State.attemptFailed_finishing hb hf]
      exact State.finishHead_frame s x
    have hf : (s.side x).bus.finishing = false := by simpa using hf
    by_cases ha : (s.side x).bus.attempts < 3
    · rw [State.attemptFailed_again hb hf ha]
      have hframe := State.openAttempt_frame
        (s.onSide x (fun d => { d with bus := { d.bus with attempts := d.bus.attempts + 1 } })) x e
      exact ⟨hframe.other.trans (by simp), hframe.frameStore⟩
    · rw [State.attemptFailed_third hb hf (by omega)]
      have hframe := State.startAttempt_frame
        ((s.onSide x (fun d => d.dropHead e rest)).raise (.side .sensorBus x) e.register) x
      exact ⟨hframe.other.trans (by simp), hframe.frameStore.trans (by simp)⟩

/-- After a failed attempt the bus carries no transaction, or one with a number that no transaction had before (R19; log entry 38). -/
theorem State.attemptFailed_transaction {e : WriteEntry} {rest : List WriteEntry} (hb : (s.side x).bus.buffer = e :: rest) :
    ((s.attemptFailed x).side x).bus.transaction = none ∨
      ((s.attemptFailed x).side x).bus.transaction.map Transaction.number = some s.opened := by
  have start : ∀ u : State, u.opened = s.opened → (u.side x).bus.state = .idle → (u.side x).bus.transaction = none →
      ((u.startAttempt x).side x).bus.transaction = none ∨
        ((u.startAttempt x).side x).bus.transaction.map Transaction.number = some s.opened := by
    intro u ho hi ht
    cases hu : (u.side x).bus.buffer with
    | nil => rw [State.startAttempt_empty u x hu]; exact .inl ht
    | cons n more =>
      obtain ⟨device, h⟩ := State.startAttempt_bus u x n more hi hu
      rw [h, ← ho]
      exact .inr rfl
  by_cases hf : (s.side x).bus.finishing = true
  · rw [State.attemptFailed_finishing hb hf]
    exact start _ rfl (by simp [Bus.closed]) (by simp [Bus.closed])
  have hf : (s.side x).bus.finishing = false := by simpa using hf
  by_cases ha : (s.side x).bus.attempts < 3
  · rw [State.attemptFailed_again hb hf ha, State.openAttempt_bus]
    exact .inr rfl
  · rw [State.attemptFailed_third hb hf (by omega)]
    exact start _ (by simp) (by simp [SideState.dropHead, Bus.closed]) (by simp [SideState.dropHead, Bus.closed])

/-- A late response to the failed attempt is discarded (R19). -/
theorem exec_late_response {e : WriteEntry} {rest : List WriteEntry} (hb : (s.side x).bus.buffer = e :: rest) (k : Nat)
    (hk : k < s.opened) (ack : Bool) : exec (.sensorBusResponse x ⟨k, ack⟩) (s.attemptFailed x) = .next (s.attemptFailed x) := by
  refine exec_response_discarded x k ack (.inr ?_)
  rcases State.attemptFailed_transaction (x := x) hb with h | h <;> rw [h]
  · simp
  · simpa using Nat.ne_of_gt hk

/-- Settles O22: an expiry and a NAK both take `State.attemptFailed`, whose outcome is `State.attemptFailed_fails`. -/
theorem failedAttemptIsRetriedTwiceThenReported : Obligations.FailedAttemptIsRetriedTwiceThenReported := by
  have expiry : ∀ (x : Side) (s : State), s.inReset = false →
      exec (.responseTimerExpiry x) s = .next (if s.responseDue x then s.attemptFailed x else s) := fun x s hr => by
    rw [exec_responseTimerExpiry, State.take_eq _ _ hr]
  refine ⟨fun x s hi => ?_, fun x s e rest hr hs hb => ⟨?_, fun hd => ?_, fun hd => ?_, fun k hk => ?_⟩⟩
  · have hd : s.responseDue x = false := by
      simp only [State.responseDue, hi, reduceCtorEq, decide_false, Bool.false_and]
    exact ⟨hd, fun hr => by rw [expiry x s hr, hd]; rfl⟩
  · rw [State.responseDue_iff]
    exact ⟨fun h => h.2, fun h => ⟨hs, h⟩⟩
  · rw [expiry x s hr, hd]; rfl
  · refine ⟨s.attemptFailed x, by rw [expiry x s hr, hd]; rfl, State.attemptFailed_fails hb, fun k hk => ⟨?_, fun ho ack => ?_⟩⟩
    · exact exec_response_taken x k false hr hs hk
    · exact exec_late_response hb k ho ack
  · exact ⟨s.attemptFailed x, exec_response_taken x k false hr hs hk, State.attemptFailed_fails hb,
      fun ho ack => exec_late_response hb k ho ack⟩

/-! ## SENSOR_WRITE (R17, R205) -/

/-- What queuing one SERVICE write makes of its side (R17, R18). -/
theorem State.serviceWrite_spec (reg val : Word) (s : State) (x : Side) :
    let t := State.serviceWrite reg val s x
    (t.side x).bus.groupCounter = (s.side x).bus.groupCounter + 1 ∧
    (t.side x).bus.buffer.map (fun w => (w.register, w.value, w.origin, w.group)) =
      (s.side x).bus.buffer.map (fun w => (w.register, w.value, w.origin, w.group)) ++
        [(reg, val, Origin.service, (s.side x).bus.groupCounter)] ∧
    ((s.side x).bus.state = .sending → (t.side x).bus.state = .sending ∧
      (t.side x).bus.transaction = (s.side x).bus.transaction ∧ (t.side x).bus.attempts = (s.side x).bus.attempts) ∧
    ((s.side x).bus.state = .idle → (s.side x).bus.buffer = [] → (t.side x).bus.state = .sending ∧
      (t.side x).bus.attempts = 1 ∧ (t.side x).bus.timerStart = s.tick ∧
      (t.side x).bus.transaction.map (fun w => (w.register, w.value)) = some (reg, val)) ∧
    { t.side x with bus := (s.side x).bus, tables := (s.side x).tables } = s.side x := by
  intro t
  obtain ⟨u, hu⟩ : ∃ u, u = s.onSide x (fun d => { d with bus := d.bus.queueService reg val }) := ⟨_, rfl⟩
  have ht : t = u.startAttempt x := by rw [hu]; rfl
  have hside : u.side x = { s.side x with bus := (s.side x).bus.queueService reg val } := by simp [hu]
  obtain ⟨hbuf, -, -, hgc⟩ := State.startAttempt_keeps u x
  have hframe := (State.startAttempt_frame u x).side
  rw [ht]
  refine ⟨?_, ?_, fun hs => ?_, fun hi hb => ?_, ?_⟩
  · rw [hgc, hside]; rfl
  · refine hbuf.trans ?_
    rw [hside]
    simp only [Bus.queueService, List.map_append, List.map_cons, List.map_nil]
    rfl
  · rw [State.startAttempt_sending u x (by rw [hside]; exact hs), hside]
    exact ⟨hs, rfl, rfl⟩
  · obtain ⟨device, h⟩ := State.startAttempt_bus u x
      { register := reg, value := val, origin := .service, group := (s.side x).bus.groupCounter, sent := false } []
      (by rw [hside]; exact hi) (by rw [hside]; simp only [Bus.queueService, hb, List.nil_append])
    rw [h]
    exact ⟨rfl, rfl, by rw [hu]; rfl, rfl⟩
  · rw [hside] at hframe
    exact congrArg (fun d : SideState => { d with bus := (s.side x).bus }) hframe

theorem State.serviceWrite_frame (reg val : Word) (s : State) (x : Side) : s.BusFrame (State.serviceWrite reg val s x) x :=
  (State.BusFrame.onBus s x (fun b => b.queueService reg val)).trans (State.startAttempt_frame _ x)

/-- Settles O54: the check on the buffers, and `State.serviceWrite_spec` for each side named, LEFT first. -/
theorem sensorWriteQueuesAServiceWrite : Obligations.SensorWriteQueuesAServiceWrite := by
  intro l xs p s ha hp hx
  have hexec : exec (.sensorWrite l p) s =
      .next ((State.writeSides p.s0 p.s1 xs s).2.respond l p.tag (State.writeSides p.s0 p.s1 xs s).1) := by
    rw [exec_sensorWrite, State.take_eq _ _ ha.1, State.sidesDirective_eq s l p _ xs ha hp hx]
  refine ⟨fun ⟨x, hxs, hfull⟩ => ?_, fun hroom => ?_⟩
  · have hn : ¬ xs.all (fun x => decide ((s.side x).bus.buffer.length < 16)) = true := fun h => by
      have := List.all_eq_true.mp h x hxs
      simp only [decide_eq_true_eq] at this
      omega
    rw [hexec, State.writeSides, if_neg hn, State.respond_refused]
  · have hall : xs.all (fun x => decide ((s.side x).bus.buffer.length < 16)) = true := by simpa using hroom
    refine ⟨_, hexec, ?_⟩
    rw [State.writeSides, if_pos hall, State.respond_done]
    simp only [State.Answered_link, State.Answered_side, State.Answered_frameStore, State.Answered_locks, State.Answered_artic,
      Link.Queued]
    rcases sidesField_cases hx with rfl | rfl | rfl
    · have hf := State.serviceWrite_frame p.s0 p.s1 s .left
      refine ⟨by rw [State.forSides, List.foldl_cons, List.foldl_nil, hf.replies], fun x hx => ?_, fun x hx => ?_, hf.frameStore,
        hf.locks, hf.artic⟩
      · rw [List.mem_singleton.mp hx]; exact State.serviceWrite_spec p.s0 p.s1 s .left
      · rw [(Side.eq_or_eq_other .left x).resolve_left (by simpa using hx)]; exact hf.other
    · have hf := State.serviceWrite_frame p.s0 p.s1 s .right
      refine ⟨by rw [State.forSides, List.foldl_cons, List.foldl_nil, hf.replies], fun x hx => ?_, fun x hx => ?_, hf.frameStore,
        hf.locks, hf.artic⟩
      · rw [List.mem_singleton.mp hx]; exact State.serviceWrite_spec p.s0 p.s1 s .right
      · rw [(Side.eq_or_eq_other .right x).resolve_left (by simpa using hx)]; exact hf.other
    · have hf := State.serviceWrite_frame p.s0 p.s1 s .left
      have hg := State.serviceWrite_frame p.s0 p.s1 (State.serviceWrite p.s0 p.s1 s .left) .right
      have hl : ((State.serviceWrite p.s0 p.s1 (State.serviceWrite p.s0 p.s1 s .left) .right).side .left) =
          (State.serviceWrite p.s0 p.s1 s .left).side .left := hg.other
      have hr : (State.serviceWrite p.s0 p.s1 s .left).side .right = s.side .right := hf.other
      refine ⟨by rw [State.forSides, List.foldl_cons, List.foldl_cons, List.foldl_nil, hg.replies, hf.replies], fun x _ => ?_,
        fun x hx => absurd (by cases x <;> simp) hx, hg.frameStore.trans hf.frameStore, hg.locks.trans hf.locks,
        hg.artic.trans hf.artic⟩
      cases x with
      | left =>
        rw [State.forSides, List.foldl_cons, List.foldl_cons, List.foldl_nil, hl]
        exact State.serviceWrite_spec p.s0 p.s1 s .left
      | right =>
        have h := State.serviceWrite_spec p.s0 p.s1 (State.serviceWrite p.s0 p.s1 s .left) .right
        simp only [hr, hf.tick] at h
        exact h

end Sys2Proof.Machine
end

section
/-! The stages of a frame start (R6): what each touches. -/

namespace Sys2Proof.Machine

variable {s t u : State} {x : Side} {rs : List RecordId}

/-! ## SENSOR_HOT (R13) -/

theorem State.checkHot_within (s : State) (x : Side) (T : Int) : s.Within (s.checkHot x T) x [.side .sensorHot x] := by
  unfold State.checkHot
  dsimp only
  split
  · exact (State.Within.onSide s x _ _).raise (by simp) _
  split
  · exact (State.Within.onSide s x _ _).endFault (by simp)
  · exact .refl s x _

@[simp] theorem State.checkHot_tableStore (s : State) (x : Side) (T : Int) : (s.checkHot x T).tableStore = s.tableStore := by
  unfold State.checkHot
  dsimp only
  split
  · simp
  split <;> simp

@[simp] theorem State.checkHot_links_replies (s : State) (x l : Side) (T : Int) :
    ((s.checkHot x T).link l).replies = (s.link l).replies := by
  unfold State.checkHot
  dsimp only
  split
  · simp
  split <;> simp

/-- Of its side the check touches the SENSOR_HOT condition alone. -/
theorem State.checkHot_side (s : State) (x : Side) (T : Int) :
    (s.checkHot x T).side x =
      { s.side x with port := { (s.side x).port with
          hotCond := if 105 ≤ T then true else if T < 102 then false else (s.side x).port.hotCond } } := by
  unfold State.checkHot
  dsimp only
  split
  · next h => simp [h.1]
  split
  · next g => simp [g.1, show ¬ 105 ≤ T by omega]
  · next h g =>
    have keep : (if 105 ≤ T then true else if T < 102 then false else (s.side x).port.hotCond) = (s.side x).port.hotCond := by
      cases hc : (s.side x).port.hotCond with
      | false =>
        have h : ¬ 105 ≤ T := fun hT => h ⟨hT, hc⟩
        simp [h]
      | true =>
        have g : ¬ T < 102 := fun hT => g ⟨hT, hc⟩
        simp [g]
    rw [keep]

/-- The record SENSOR_HOT after the check (R13). -/
theorem State.checkHot_fault (s : State) (x : Side) (T : Int) :
    (s.checkHot x T).faults.get (.side .sensorHot x) =
      if 105 ≤ T ∧ (s.side x).port.hotCond = false then (s.faults.get (.side .sensorHot x)).setAt s.tick (wordOfInt T)
      else if T < 102 ∧ (s.side x).port.hotCond = true then (s.faults.get (.side .sensorHot x)).endedAt s.tick
      else s.faults.get (.side .sensorHot x) := by
  unfold State.checkHot
  dsimp only
  split
  · simp
  split <;> simp

/-! ## The tables (R53, R57, R161, R164, R169) -/

/-- The table store's part up to the defect list: the swap, and the list with its edits. -/
def State.takeList (s : State) (x : Side) : List DefectEntry × State := (s.swapPending x).applyPendingEdits x

/-- The working copies that the frame takes. -/
def State.takeCopies (s : State) (x : Side) : State :=
  (State.copyTables x TableId.all (romTables x) s).2.onSide x (fun d =>
    { d with dev := { d.dev with copies := some (State.copyTables x TableId.all (romTables x) s).1 } })

theorem State.takeTables_eq (s : State) (x : Side) :
    s.takeTables x = ((s.takeList x).1, ((s.takeList x).2.takeCopies x).checkPoisonAtStart x) := rfl

/-- The run of the list's reads, with the edits still pending. -/
theorem State.applyPendingEdits_eq (s : State) (x : Side) :
    s.applyPendingEdits x = ((s.readList x (s.side x).dev.edits).1,
      (s.readList x (s.side x).dev.edits).2.onSide x (fun d => { d with dev := { d.dev with edits := [] } })) := rfl

theorem State.applyPendingEdits_within (s : State) (x : Side) : s.Within (s.applyPendingEdits x).2 x (tableRecords x) := by
  have h := (State.readList_frame s x (s.side x).dev.edits).within_tableRecords
  exact h.thenOnSide (fun d => { d with dev := { d.dev with edits := [] } })

/-- Of its side the list's read touches the tables and the pending edits. -/
theorem State.applyPendingEdits_side (s : State) (x : Side) :
    { (s.applyPendingEdits x).2.side x with tables := (s.side x).tables } =
      { s.side x with dev := { (s.side x).dev with edits := [] } } := by
  have h := (State.readList_frame s x (s.side x).dev.edits).side
  rw [State.applyPendingEdits_eq, State.onSide_side]
  exact congrArg (fun d : SideState => { d with dev := { d.dev with edits := [] } }) h

theorem State.applyPendingEdits_replies (s : State) (x l : Side) :
    ((s.applyPendingEdits x).2.link l).replies = (s.link l).replies :=
  (State.readList_frame s x (s.side x).dev.edits).link_replies l

theorem State.takeList_within (s : State) (x : Side) : s.Within (s.takeList x).2 x (tableRecords x) :=
  ((State.swapPending_within s x).mono (by simp [tableRecords])).trans (State.applyPendingEdits_within _ x)

theorem State.takeList_side (s : State) (x : Side) :
    { (s.takeList x).2.side x with tables := (s.side x).tables } = { s.side x with dev := { (s.side x).dev with edits := [] } } := by
  have h := State.applyPendingEdits_side (s.swapPending x) x
  have g := State.swapPending_side s x
  have hg := congrArg (fun d : SideState => { d with dev := { d.dev with edits := [] } }) g
  have hh := congrArg (fun d : SideState => { d with tables := (s.side x).tables }) h
  exact hh.trans hg

theorem State.takeCopies_within (s : State) (x : Side) : s.Within (s.takeCopies x) x (tableRecords x) :=
  (State.copyTables_frame x TableId.all _ s).within_tableRecords.thenOnSide _

theorem State.takeCopies_side (s : State) (x : Side) :
    { (s.takeCopies x).side x with tables := (s.side x).tables } =
      { s.side x with dev := { (s.side x).dev with copies := some (State.copyTables x TableId.all (romTables x) s).1 } } := by
  have h := (State.copyTables_frame x TableId.all (romTables x) s).side
  rw [State.takeCopies, State.onSide_side]
  exact congrArg (fun d : SideState =>
    { d with dev := { d.dev with copies := some (State.copyTables x TableId.all (romTables x) s).1 } }) h

theorem State.takeTables_within (s : State) (x : Side) : s.Within (s.takeTables x).2 x (tableRecords x) :=
  ((State.takeList_within s x).trans (State.takeCopies_within _ x)).trans (State.checkPoisonAtStart_frame _ x).within_tableRecords

/-- The working copies after the table store's part of a frame start. -/
def State.copiesTaken (s : State) (x : Side) : PerTable (List Word) :=
  (State.copyTables x TableId.all (romTables x) (s.takeList x).2).1

/-- Of its side the table store's part touches the tables, the pending edits and the working copies. -/
theorem State.takeTables_side (s : State) (x : Side) :
    { (s.takeTables x).2.side x with tables := (s.side x).tables } =
      { s.side x with dev := { (s.side x).dev with edits := [], copies := some (s.copiesTaken x) } } := by
  have h1 := State.takeList_side s x
  have h2 := State.takeCopies_side (s.takeList x).2 x
  have h3 := (State.checkPoisonAtStart_frame ((s.takeList x).2.takeCopies x) x).side
  have g3 := congrArg (fun d : SideState => { d with tables := (s.side x).tables }) h3
  have g2 := congrArg (fun d : SideState => { d with tables := (s.side x).tables }) h2
  have g1 := congrArg (fun d : SideState => { d with dev := { d.dev with copies := some (s.copiesTaken x) } }) h1
  exact (g3.trans g2).trans g1

/-! ## The exposure unit (R29 to R33, R45) -/

/-- What the exposure unit makes of a frame start before it reports (R29 to R31, R45). -/
def State.matchFound (s : State) (x : Side) (e : Embedded) : MatchResult × Exposure :=
  (((s.side x).exposure.switchBank).retire e.number).matchFrame
    (limitsOf (s.profileOf x ((s.side x).exposure.switchBank).bank) (s.sensorOf x)) e.integ e.code

/-- The frame record and the exposure unit with what the match found. -/
def SideState.takeMatch (d : SideState) (m : MatchResult × Exposure) : SideState :=
  { (d.onNewest (fun r =>
      { r with exposure := m.2.inForce.getD r.exposure, matched := decide (m.1 ≠ .mismatched), bank := m.2.bank }))
    with exposure := m.2 }

theorem State.matchExposure_eq (s : State) (x : Side) (e : Embedded) :
    s.matchExposure x e =
      (s.onSide x (fun d => d.takeMatch (s.matchFound x e))).reportMatch x e.number (s.matchFound x e).1 := rfl

theorem SideState.onNewest_frame (d : SideState) (f : FrameRecord → FrameRecord) : { d.onNewest f with history := d.history } = d := by
  unfold SideState.onNewest
  split <;> rfl

theorem SideState.onNewest_history (d : SideState) (f : FrameRecord → FrameRecord) :
    (d.onNewest f).history = d.history.modifyHead f := by
  unfold SideState.onNewest
  split
  · next h => simp [h]
  · next h => simp [h]

theorem SideState.takeMatch_frame (d : SideState) (m : MatchResult × Exposure) :
    { d.takeMatch m with history := d.history, exposure := d.exposure } = d := by
  have h := SideState.onNewest_frame d (fun r =>
    { r with exposure := m.2.inForce.getD r.exposure, matched := decide (m.1 ≠ .mismatched), bank := m.2.bank })
  exact congrArg (fun e : SideState => { e with exposure := d.exposure }) h

theorem State.reportMatch_within (s : State) (x : Side) (f : FrameNo) (m : MatchResult) :
    s.Within (s.reportMatch x f m) x [.side .exposureMismatch x] := by
  cases m with
  | seeded => exact .refl s x _
  | matched =>
    simp only [State.reportMatch]
    split
    · exact (State.Within.onSide s x _ _).endFault (by simp)
    · exact .refl s x _
  | mismatched =>
    simp only [State.reportMatch]
    split
    · exact (State.Within.onSide s x _ _).raise (by simp) _
    · exact .refl s x _

@[simp] theorem State.reportMatch_tableStore (s : State) (x : Side) (f : FrameNo) (m : MatchResult) :
    (s.reportMatch x f m).tableStore = s.tableStore := by
  cases m <;> simp only [State.reportMatch] <;> (try split) <;> simp

/-- The mismatch condition after the report of a match (R32). -/
def Exposure.mismatchAfter (e : Exposure) : MatchResult → Bool
  | .seeded => e.mismatchCond
  | .matched => false
  | .mismatched => e.mismatchCond || decide (3 ≤ e.mismatchCount)

/-- Of its side the report of a match touches the mismatch condition alone (R32). -/
theorem State.reportMatch_side (s : State) (x : Side) (f : FrameNo) (m : MatchResult) :
    (s.reportMatch x f m).side x =
      { s.side x with exposure := { (s.side x).exposure with mismatchCond := (s.side x).exposure.mismatchAfter m } } := by
  cases m with
  | seeded => rfl
  | matched =>
    simp only [State.reportMatch, Exposure.mismatchAfter]
    split
    · simp
    · next h =>
      have h : (s.side x).exposure.mismatchCond = false := by simpa using h
      rw [← h]
  | mismatched =>
    simp only [State.reportMatch, Exposure.mismatchAfter]
    split
    · next h => simp [h]
    · next h => simp [h]

theorem State.matchExposure_within (s : State) (x : Side) (e : Embedded) :
    s.Within (s.matchExposure x e) x [.side .exposureMismatch x] :=
  (State.Within.onSide s x _ _).trans (State.reportMatch_within _ x _ _)

/-- The side after the exposure unit's part of a frame start. -/
theorem State.matchExposure_side (s : State) (x : Side) (e : Embedded) :
    (s.matchExposure x e).side x =
      { (s.side x).takeMatch (s.matchFound x e) with
        exposure := { (s.matchFound x e).2 with mismatchCond := (s.matchFound x e).2.mismatchAfter (s.matchFound x e).1 } } := by
  rw [State.matchExposure_eq, State.reportMatch_side, State.onSide_side]
  rfl

@[simp] theorem State.matchExposure_tableStore (s : State) (x : Side) (e : Embedded) :
    (s.matchExposure x e).tableStore = s.tableStore := by
  rw [State.matchExposure_eq, State.reportMatch_tableStore, State.onSide_tableStore]

/-- The match leaves of the exposure unit all but the record in force and the mismatch count. -/
theorem Exposure.matchFrame_frame (e : Exposure) (l : Limits) (iEmb code : Nat) :
    { (e.matchFrame l iEmb code).2 with inForce := e.inForce, mismatchCount := e.mismatchCount } = e := by
  unfold Exposure.matchFrame
  dsimp only
  split
  · rfl
  · split <;> rfl

theorem Exposure.switchBank_frame (e : Exposure) : { e.switchBank with bank := e.bank, scheduled := e.scheduled } = e := by
  unfold Exposure.switchBank
  split <;> rfl

/-- The pending queue after a frame start (R29). -/
theorem State.matchFound_pendingQueue (s : State) (x : Side) (e : Embedded) :
    (s.matchFound x e).2.pendingQueue =
      (s.side x).exposure.pendingQueue.filter (fun p => !(p.due e.number || p.farAhead e.number)) := by
  have h := congrArg Exposure.pendingQueue (Exposure.matchFrame_frame (((s.side x).exposure.switchBank).retire e.number)
    (limitsOf (s.profileOf x ((s.side x).exposure.switchBank).bank) (s.sensorOf x)) e.integ e.code)
  have g := congrArg Exposure.pendingQueue (Exposure.switchBank_frame (s.side x).exposure)
  simp only at h g
  rw [State.matchFound, h, Exposure.retire, g]

/-! ## The slot and the developer (R54, R58, R77, R110) -/

/-- At the start of development the side's records, slots and developer change, and nothing else of it. -/
theorem SideState.fillSlot_frame (d : SideState) (g : Geometry) (f : FrameNo) (arrival : Tick) (serial : Nat) :
    { (d.fillSlot g f arrival serial).2 with store := d.store } = d := by
  unfold SideState.fillSlot
  split <;> rfl

theorem SideState.beginDevelopment_frame (d : SideState) (e : Embedded) (list : List DefectEntry) (now : Tick) (serial : Nat) :
    { d.beginDevelopment e list now serial with history := d.history, dev := d.dev, store := d.store } = d := by
  have h := SideState.fillSlot_frame d d.comp.mode.geometry e.number now serial
  have g := SideState.onNewest_frame (d.fillSlot d.comp.mode.geometry e.number now serial).2
    (fun r => { r with slot := (d.fillSlot d.comp.mode.geometry e.number now serial).1 })
  have g' := congrArg (fun c : SideState => { c with history := d.history, dev := d.dev, store := d.store }) g
  have h' := congrArg (fun c : SideState => { c with history := d.history, dev := d.dev }) h
  exact g'.trans h'

theorem SideState.beginDevelopment_history (d : SideState) (e : Embedded) (list : List DefectEntry) (now : Tick) (serial : Nat) :
    (d.beginDevelopment e list now serial).history =
      d.history.modifyHead (fun r => { r with slot := (d.fillSlot d.comp.mode.geometry e.number now serial).1 }) := by
  have h := congrArg SideState.history (SideState.fillSlot_frame d d.comp.mode.geometry e.number now serial)
  have g := SideState.onNewest_history (d.fillSlot d.comp.mode.geometry e.number now serial).2
    (fun r => { r with slot := (d.fillSlot d.comp.mode.geometry e.number now serial).1 })
  exact g.trans (congrArg _ h)

/-- The developer keeps its edits and working copies when development begins. -/
theorem SideState.beginDevelopment_dev (d : SideState) (e : Embedded) (list : List DefectEntry) (now : Tick) (serial : Nat) :
    (d.beginDevelopment e list now serial).dev.edits = d.dev.edits ∧
      (d.beginDevelopment e list now serial).dev.copies = d.dev.copies := by
  have h := congrArg SideState.dev (SideState.fillSlot_frame d d.comp.mode.geometry e.number now serial)
  have g := congrArg SideState.dev (SideState.onNewest_frame (d.fillSlot d.comp.mode.geometry e.number now serial).2
    (fun r => { r with slot := (d.fillSlot d.comp.mode.geometry e.number now serial).1 }))
  have k : ((d.fillSlot d.comp.mode.geometry e.number now serial).2.onNewest
      (fun r => { r with slot := (d.fillSlot d.comp.mode.geometry e.number now serial).1 })).dev = d.dev := g.trans h
  have ke := congrArg Developer.edits k
  have kc := congrArg Developer.copies k
  exact ⟨ke, kc⟩

/-! ## The whole frame start -/

/-- The records that a frame start reports on. -/
def frameStartRecords (x : Side) : List RecordId :=
  [.side .sensorHot x, .part .errorCorrected, .side .tablePoisoned x, .side .exposureMismatch x]

/-- The state before development begins: the frame opened, the tables taken, the windows stepped and the exposure matched. -/
def State.frameTaken (s : State) (x : Side) (e : Embedded) : List DefectEntry × State :=
  let r := ((s.onSide x (fun d => d.openFrame e s.tick)).checkHot x (clamp e.temp (-40) 150)).takeTables x
  (r.1, (r.2.stepWindows x).matchExposure x e)

theorem State.frameStart_eq (s : State) (x : Side) (e : Embedded) :
    s.frameStart x e =
      (s.frameTaken x e).2.onSide x (fun d =>
        d.beginDevelopment e (s.frameTaken x e).1 (s.frameTaken x e).2.tick (s.side x).nextSerial) := rfl

theorem State.frameTaken_within (s : State) (x : Side) (e : Embedded) :
    s.Within (s.frameTaken x e).2 x (frameStartRecords x) := by
  refine .trans (.trans (.trans (.trans (.onSide s x _ _) ((State.checkHot_within _ x _).mono ?_))
    ((State.takeTables_within _ x).mono ?_)) (.onSide _ x _ _)) ((State.matchExposure_within _ x e).mono ?_) <;>
    simp [frameStartRecords, tableRecords]

theorem State.frameStart_within (s : State) (x : Side) (e : Embedded) : s.Within (s.frameStart x e) x (frameStartRecords x) := by
  rw [State.frameStart_eq]
  exact (State.frameTaken_within s x e).thenOnSide _

end Sys2Proof.Machine
end

section
/-! The rest of the part's operations keep to the laws of the queues (R6, R15, R29, R40, R41, R56). -/

namespace Sys2Proof.Machine

variable {lat : Prop} {s t u : State} {x : Side}

/-! ## The sensor bus -/

theorem State.openAttempt_mild (s : State) (x : Side) (e : WriteEntry) : s.Mild lat (s.openAttempt x e) := by
  have h : s.Mild lat { (s.deviceAddress x).2 with opened := (s.deviceAddress x).2.opened + 1 } :=
    (State.deviceAddress_steps s x).mild.trans (.of_eq rfl rfl)
  unfold State.openAttempt
  exact h.thenOnSide ⟨rfl, rfl, rfl, rfl, rfl⟩

theorem State.startAttempt_mild (s : State) (x : Side) : s.Mild lat (s.startAttempt x) := by
  unfold State.startAttempt
  dsimp only
  split
  · refine .trans (.onSide_same ⟨?_, rfl, rfl, rfl, rfl⟩) (State.openAttempt_mild _ x _)
    dsimp only
    split
    · rfl
    · exact markSent_length _ _
  · exact .refl s

/-- A change of the bus master keeps the bounds while its buffer holds at most 16 entries (R15). -/
theorem State.Mild.onBus (f : SideState → Bus) (h : (s.side x).bus.buffer.length ≤ 16 → (f (s.side x)).buffer.length ≤ 16) :
    s.Mild lat (s.onSide x (fun d => { d with bus := f d })) :=
  .onSide _ (fun hb => ⟨h hb.1, hb.2⟩) (fun _ hp => hp)

theorem State.finishHead_mild (s : State) (x : Side) : s.Mild lat (s.finishHead x) := by
  refine .trans (.onBus (fun d => d.bus.closed (d.bus.buffer.drop 1)) fun h => ?_) (State.startAttempt_mild _ x)
  simp only [Bus.closed, List.length_drop]
  omega

theorem State.serviceWrite_mild (reg val : Word) (h : (s.side x).bus.buffer.length < 16) :
    s.Mild lat (State.serviceWrite reg val s x) := by
  refine .trans (.onBus (fun d => d.bus.queueService reg val) fun _ => ?_) (State.startAttempt_mild _ x)
  simp only [Bus.queueService, List.length_append, List.length_cons, List.length_nil]
  omega

theorem State.sendExposure_mild (s : State) (x : Side) (r : ExpRecord) : s.Mild lat (s.sendExposure x r) := by
  have h : s.Mild lat (s.onSide x (fun d => { d with bus :=
      ((s.side x).bus.requestGroup (s.sensorOf x).integRegister (wordOf r.integ) (s.sensorOf x).gainRegister
        (wordOf (r.analog / 32))).2 })) := .onBus (fun _ => _) (Bus.requestGroup_length _ _ _ _ _)
  unfold State.sendExposure
  dsimp only
  split
  · exact h
  · exact (h.thenOnSide ⟨rfl, rfl, rfl, rfl, rfl⟩).trans (State.startAttempt_mild _ x)

theorem State.writeFailed_mild (s : State) (x : Side) (e : WriteEntry) (rest : List WriteEntry)
    (hb : (s.side x).bus.buffer = e :: rest) : s.Mild lat (s.writeFailed x e rest) := by
  have hrest : (s.side x).bus.buffer.length ≤ 16 → rest.length ≤ 16 := fun h => by
    rw [hb, List.length_cons] at h
    omega
  have close : ∀ buf : List WriteEntry, buf.length ≤ rest.length →
      s.Mild lat (s.onSide x (fun d => { d with bus := { d.bus.closed buf with busCond := true } })) := fun buf hl =>
    .onBus (fun d => { d.bus.closed buf with busCond := true }) (fun h => Nat.le_trans hl (hrest h))
  unfold State.writeFailed
  cases e.origin with
  | exposure =>
    exact (((close _ (List.length_filter_le _ _)).thenOnSide ⟨rfl, rfl, rfl, rfl, rfl⟩).thenRaise _ _).trans
      (State.startAttempt_mild _ x)
  | service => exact ((close _ (Nat.le_refl _)).thenRaise _ _).trans (State.startAttempt_mild _ x)

theorem State.attemptFailed_mild (s : State) (x : Side) : s.Mild lat (s.attemptFailed x) := by
  unfold State.attemptFailed
  split
  · exact .refl s
  · next e rest hb =>
    split
    · exact State.finishHead_mild s x
    split
    · exact .trans (.onSide_same ⟨rfl, rfl, rfl, rfl, rfl⟩) (State.openAttempt_mild _ x e)
    · exact State.writeFailed_mild s x e rest hb

/-! ## The pending exposures (R29, R40, R41) -/

/-- The distance of a target that is not due at a frame start nor too far ahead of it (R29). -/
theorem PendingEntry.distance {f : FrameNo} {p : PendingEntry} (h : (!(p.due f || p.farAhead f)) = true) :
    1 ≤ (p.target - f).toNat ∧ (p.target - f).toNat ≤ 3 := by
  simp only [PendingEntry.due, PendingEntry.farAhead, later, Bool.not_eq_true', Bool.or_eq_false_iff, decide_eq_false_iff_not,
    Bool.and_eq_false_iff] at h
  obtain ⟨⟨hne, hdue⟩, hfar⟩ := h
  have hne : p.target.toNat ≠ f.toNat := fun e => hne (BitVec.eq_of_toNat_eq e)
  bv_omega

/-- A target that keeps its distance below a new one is earlier than it (R41). -/
theorem later_of_not_later {f a b : FrameNo} (hb : 1 ≤ (b - f).toNat ∧ (b - f).toNat ≤ 3) (ha : 1 ≤ (a - f).toNat ∧ (a - f).toNat ≤ 3)
    (hne : a ≠ b) (h : later a b = false) : later b a = true := by
  simp only [later, Bool.and_eq_false_iff, decide_eq_false_iff_not, Bool.and_eq_true, decide_eq_true_eq] at h ⊢
  have hne : a.toNat ≠ b.toNat := fun e => hne (BitVec.eq_of_toNat_eq e)
  bv_omega

/-- A new entry 1 to 3 frames ahead keeps the queue in order and in range (R41). -/
theorem joinPending_lawful {q : List PendingEntry} {e : PendingEntry} {f : FrameNo}
    (hq : q.Pairwise (fun p r => later r.target p.target = true))
    (hr : ∀ p ∈ q, 1 ≤ (p.target - f).toNat ∧ (p.target - f).toNat ≤ 3) (he : 1 ≤ (e.target - f).toNat ∧ (e.target - f).toNat ≤ 3) :
    (joinPending q e).Pairwise (fun p r => later r.target p.target = true) ∧
      ∀ p ∈ joinPending q e, 1 ≤ (p.target - f).toNat ∧ (p.target - f).toNat ≤ 3 := by
  have kept : ∀ p ∈ (q.filter (fun p => !(decide (p.target = e.target) || later p.target e.target))),
      p ∈ q ∧ later e.target p.target = true := by
    intro p hp
    simp only [List.mem_filter, Bool.not_eq_true', Bool.or_eq_false_iff, decide_eq_false_iff_not] at hp
    exact ⟨hp.1, later_of_not_later he (hr p hp.1) hp.2.1 hp.2.2⟩
  refine ⟨?_, fun p hp => ?_⟩
  · refine List.pairwise_append.mpr ⟨(hq.filter _).drop, List.pairwise_singleton _ _, fun p hp r hr => ?_⟩
    rw [List.mem_singleton.mp hr]
    exact (kept p (List.mem_of_mem_drop hp)).2
  · rcases List.mem_append.mp hp with hp | hp
    · exact hr p (kept p (List.mem_of_mem_drop hp)).1
    · rw [List.mem_singleton.mp hp]; exact he

/-- The target of an acknowledged group lies 1 to 3 frames ahead. -/
theorem target_distance (f : FrameNo) {n : Nat} (h : 1 ≤ n ∧ n ≤ 3) :
    1 ≤ (f + BitVec.ofNat 16 n - f).toNat ∧ (f + BitVec.ofNat 16 n - f).toNat ≤ 3 := by
  obtain ⟨h1, h2⟩ := h
  bv_omega

theorem Exposure.acknowledged_pendingQueue (e : Exposure) (fcur : Option FrameNo) (n : Nat) (g : BitVec 8) :
    (e.acknowledged fcur n g).pendingQueue = e.pendingQueue ∨
      ∃ f r, fcur = some f ∧
        (e.acknowledged fcur n g).pendingQueue = joinPending e.pendingQueue { target := f + BitVec.ofNat 16 n, record := r } := by
  unfold Exposure.acknowledged
  split
  · exact .inl rfl
  · next o _ =>
    cases fcur with
    | none => exact .inl rfl
    | some f => exact .inr ⟨f, o.record, rfl, rfl⟩

theorem State.groupAcknowledged_mild (s : State) (x : Side) (g : BitVec 8)
    (hl : lat → 1 ≤ (s.sensorOf x).nLat ∧ (s.sensorOf x).nLat ≤ 3) : s.Mild lat (s.groupAcknowledged x g) := by
  rw [State.groupAcknowledged_eq]
  rcases Exposure.acknowledged_pendingQueue (s.side x).exposure (s.side x).port.fcur (s.sensorOf x).nLat g with
    hq | ⟨f, r, hf, hq⟩
  · exact .onSide_same ⟨rfl, hq, rfl, rfl, rfl⟩
  · refine .onSide _ (fun hb => ⟨hb.1, ?_, hb.2.2⟩) (fun l hp => ?_)
    · rw [hq]; exact joinPending_length _ _
    · obtain ⟨hpair, hrange⟩ := hp
      have hrange : ∀ p ∈ (s.side x).exposure.pendingQueue, 1 ≤ (p.target - f).toNat ∧ (p.target - f).toNat ≤ 3 := fun p hp => by
        obtain ⟨f', hf', h⟩ := hrange p hp
        rw [hf] at hf'
        exact Option.some.inj hf' ▸ h
      have hjoin := joinPending_lawful (e := { target := f + BitVec.ofNat 16 (s.sensorOf x).nLat, record := r }) hpair hrange
        (target_distance f (hl l))
      rw [← hq] at hjoin
      exact ⟨hjoin.1, fun p hp => ⟨f, hf, hjoin.2 p hp⟩⟩

theorem State.attemptAcked_mild (s : State) (x : Side) (hl : lat → 1 ≤ (s.sensorOf x).nLat ∧ (s.sensorOf x).nLat ≤ 3) :
    s.Mild lat (s.attemptAcked x) := by
  cases hb : (s.side x).bus.buffer with
  | nil => simp only [State.attemptAcked, hb]; exact .refl s
  | cons e rest =>
    by_cases hf : (s.side x).bus.finishing = true
    · rw [State.attemptAcked_finishing hb hf]
      exact State.finishHead_mild s x
    rw [State.attemptAcked_eq hb (by simpa using hf)]
    have hclose : s.Mild lat (s.onSide x (fun d => { d with bus := d.bus.closed rest })) :=
      .onBus (fun d => d.bus.closed rest) fun h => by
        rw [hb, List.length_cons] at h
        simp only [Bus.closed]
        omega
    refine (hclose.trans ?_).trans (State.startAttempt_mild _ x)
    unfold State.reportAck
    split
    · refine .trans (State.groupAcknowledged_mild _ x _ ?_) (State.endSensorBus_mild _ x)
      simpa [State.sensorOf, State.copies] using hl
    · exact .refl _

/-! ## Frames -/

theorem SideState.openFrame_history (d : SideState) (e : Embedded) (now : Tick) :
    (d.openFrame e now).history.length ≤ 8 := by
  simp only [SideState.openFrame, List.length_cons, List.length_take]
  omega

theorem State.applyPendingEdits_mild (s : State) (x : Side) : s.Mild lat (s.applyPendingEdits x).2 := by
  rw [State.applyPendingEdits_eq]
  dsimp only
  exact (State.readList_steps s x (s.side x).dev.edits).mild.trans
    (.onSide _ (fun hb => ⟨hb.1, hb.2.1, hb.2.2.1, Nat.zero_le _⟩) (fun _ hp => hp))

theorem State.takeTables_mild (s : State) (x : Side) : s.Mild lat (s.takeTables x).2 := by
  rw [State.takeTables_eq]
  have hlist : s.Mild lat (s.takeList x).2 := (State.swapPending_mild s x).trans (State.applyPendingEdits_mild _ x)
  have hcopies := (State.copyTables_steps x TableId.all (romTables x) (s.takeList x).2).mild (lat := lat)
  exact ((hlist.trans hcopies).thenOnSide ⟨rfl, rfl, rfl, rfl, rfl⟩).trans (State.checkPoisonAtStart_steps _ x).mild

theorem State.matchExposure_bounded (s : State) (x : Side) (e : Embedded) : s.Mild False (s.matchExposure x e) := by
  rw [State.matchExposure_eq]
  refine .trans (.onSide _ (fun hb => ?_) (fun h => h.elim)) (State.reportMatch_mild _ x _ _)
  obtain ⟨hbuf, hpend, hhist, hedits⟩ := hb
  have hframe := SideState.takeMatch_frame (s.side x) (s.matchFound x e)
  have hbus := congrArg SideState.bus hframe
  have hdev := congrArg SideState.dev hframe
  simp only at hbus hdev
  refine ⟨by rw [hbus]; exact hbuf, ?_, ?_, by rw [hdev]; exact hedits⟩
  · rw [show ((s.side x).takeMatch (s.matchFound x e)).exposure = (s.matchFound x e).2 from rfl, State.matchFound_pendingQueue]
    exact Nat.le_trans (List.length_filter_le _ _) hpend
  · rw [show ((s.side x).takeMatch (s.matchFound x e)).history.length = (s.side x).history.length from
      SideState.onNewest_history_length _ _]
    exact hhist

theorem SideState.SameQueues.beginDevelopment (d : SideState) (e : Embedded) (list : List DefectEntry) (now : Tick) (serial : Nat) :
    d.SameQueues (d.beginDevelopment e list now serial) := by
  have h := SideState.beginDevelopment_frame d e list now serial
  have hbus := congrArg SideState.bus h
  have hexp := congrArg SideState.exposure h
  have hport := congrArg SideState.port h
  simp only at hbus hexp hport
  refine ⟨by rw [hbus], by rw [hexp], ?_, by rw [(SideState.beginDevelopment_dev d e list now serial).1], by rw [hport]⟩
  rw [SideState.beginDevelopment_history]
  cases d.history <;> rfl

/-- A frame start keeps the bounds and the links' laws; its pending queue is looked at apart. -/
theorem State.frameStart_bounded (s : State) (x : Side) (e : Embedded) : s.Mild False (s.frameStart x e) := by
  have hopen : s.Mild False (s.onSide x (fun d => d.openFrame e s.tick)) :=
    .onSide _ (fun hb => ⟨hb.1, hb.2.1, SideState.openFrame_history _ _ _, hb.2.2.2⟩) (fun h => h.elim)
  have htaken : s.Mild False (s.frameTaken x e).2 :=
    (((hopen.trans (State.checkHot_mild _ x _)).trans (State.takeTables_mild _ x)).thenOnSide ⟨rfl, rfl, rfl, rfl, rfl⟩).trans
      (State.matchExposure_bounded _ x e)
  rw [State.frameStart_eq]
  exact htaken.thenOnSide (.beginDevelopment _ _ _ _ _)

/-- The frame number and the pending queue of a side before a frame's exposure is matched. -/
theorem State.windowsStepped_port (s : State) (x : Side) (e : Embedded) :
    let u := ((((s.onSide x (fun d => d.openFrame e s.tick)).checkHot x (clamp e.temp (-40) 150)).takeTables x).2.stepWindows x)
    (u.side x).port.fcur = some e.number ∧ (u.side x).exposure = (s.side x).exposure := by
  intro u
  have h := State.takeTables_side ((s.onSide x (fun d => d.openFrame e s.tick)).checkHot x (clamp e.temp (-40) 150)) x
  rw [State.checkHot_side, State.onSide_side] at h
  have hport := congrArg (fun d : SideState => d.port.fcur) h
  have hexp := congrArg SideState.exposure h
  simp only [u, State.stepWindows, State.onSide_side]
  exact ⟨hport, hexp⟩

/-- After a frame start the pending queue holds what is neither due nor too far ahead (R29). -/
theorem State.frameStart_pending (s : State) (x : Side) (e : Embedded) :
    ((s.frameStart x e).side x).port.fcur = some e.number ∧
      ((s.frameStart x e).side x).exposure.pendingQueue =
        (s.side x).exposure.pendingQueue.filter (fun p => !(p.due e.number || p.farAhead e.number)) := by
  have hsame := SideState.SameQueues.beginDevelopment ((s.frameTaken x e).2.side x) e (s.frameTaken x e).1
    (s.frameTaken x e).2.tick (s.side x).nextSerial
  obtain ⟨hfcur, hexp⟩ := State.windowsStepped_port s x e
  rw [State.frameStart_eq, State.onSide_side, hsame.fcur, hsame.pending]
  simp only [State.frameTaken, State.matchExposure_side]
  refine ⟨?_, ?_⟩
  · rw [congrArg SideState.port (SideState.takeMatch_frame _ _ :)]
    exact hfcur
  · rw [State.matchFound_pendingQueue, hexp]

theorem State.frameStart_mild (s : State) (x : Side) (e : Embedded) : s.Mild lat (s.frameStart x e) where
  link := (State.frameStart_bounded s x e).link
  bounded := (State.frameStart_bounded s x e).bounded
  pending _ y hp := by
    rcases Side.eq_or_eq_other x y with rfl | rfl
    · obtain ⟨hfcur, hq⟩ := State.frameStart_pending s y e
      rw [SideState.PendingLawful, hfcur, hq]
      exact ⟨hp.1.filter _, fun p hp => ⟨e.number, rfl, PendingEntry.distance (List.mem_filter.mp hp).2⟩⟩
    · rw [(State.frameStart_within s x e).other]
      exact hp

theorem State.receiveLine_mild (s : State) (x : Side) (ws : List Sample) : s.Mild lat (s.receiveLine x ws) := by
  unfold State.receiveLine
  split
  · exact .refl s
  · unfold State.statusLine
    dsimp only
    split
    · exact State.malformed_mild s x _ _
    split
    · exact .trans (.onSide_same ⟨rfl, rfl, rfl, rfl, rfl⟩) (State.frameStart_mild _ x _)
    · exact .onSide_same ⟨rfl, rfl, rfl, rfl, rfl⟩
  · unfold State.activeLine
    dsimp only
    split
    · exact State.malformed_mild s x _ _
    · exact .trans (.onSide_same ⟨rfl, rfl, rfl, rfl, rfl⟩) (State.developLine_mild _ x _ _)

theorem State.frameBegin_mild (s : State) (x : Side) : s.Mild lat (s.frameBegin x) := by
  rw [State.frameBegin_eq]
  refine .thenOnSide ?_ ⟨rfl, rfl, rfl, rfl, rfl⟩
  split
  · exact .refl s
  · exact State.malformed_mild s x _ _
  · exact State.malformed_mild s x _ _

theorem SideState.SameQueues.updateGlare (d : SideState) (p : Profile) (f : FrameNo) (zones : List ZoneAcc) :
    d.SameQueues (d.updateGlare p f zones) :=
  (SideState.SameQueues.onNewest d _).trans ⟨rfl, rfl, rfl, rfl, rfl⟩

theorem SideState.updateGlare_frame (d : SideState) (p : Profile) (f : FrameNo) (zones : List ZoneAcc) :
    { d.updateGlare p f zones with history := d.history, glare := d.glare } = d := by
  have h := SideState.onNewest_frame d (fun r => { r with glare := some (litCountOf p zones, suspendedOf p zones) })
  exact congrArg (fun e : SideState => { e with glare := d.glare }) h

theorem Exposure.evaluateLadder_frame (e : Exposure) (l : Ladder) (b : Bank) (scene : Int) :
    { e.evaluateLadder l b scene with scheduled := e.scheduled, dwell := e.dwell, direction := e.direction } = e := by
  unfold Exposure.evaluateLadder
  split
  · rfl
  split
  · rfl
  · unfold Exposure.dwellStep
    split
    · rfl
    · dsimp only
      split <;> split <;> rfl

theorem State.meterFrame_mild (s : State) (x : Side) (inp : FrameInputs) (zones : List ZoneAcc) :
    s.Mild lat (s.meterFrame x inp zones) := by
  unfold State.meterFrame
  dsimp only
  split
  · exact .onSide_same (.onNewest _ _)
  · next m _ =>
    have h : s.Mild lat (s.onSide x (fun d =>
        { d.onNewest (fun r => { r with metered := some (m, (logLevel m : Int) - inp.exposure.total) }) with
          exposure := (d.onNewest (fun r => { r with metered := some (m, (logLevel m : Int) - inp.exposure.total) })).exposure.evaluateLadder
            (readLadder (s.copies x).ladder) inp.bank ((logLevel m : Int) - inp.exposure.total) })) := by
      refine .onSide_same ((SideState.SameQueues.onNewest _ _).trans ⟨rfl, ?_, rfl, rfl, rfl⟩)
      have hl := congrArg Exposure.pendingQueue (Exposure.evaluateLadder_frame
        ((s.side x).onNewest (fun r => { r with metered := some (m, (logLevel m : Int) - inp.exposure.total) })).exposure
        (readLadder (s.copies x).ladder) inp.bank ((logLevel m : Int) - inp.exposure.total))
      exact hl
    split
    · exact h
    · exact h.trans (State.sendExposure_mild _ x _)

/-- The port, the condition records and the slots at a good frame end (R7, R10, R11, R111): the first part of `State.goodFrameEnd`. -/
def State.closeGood (s : State) (x : Side) : State :=
  ((s.onSide x (fun d =>
    { d with port := { d.port with phase := .closed, goodCount := satSucc d.port.goodCount 255, badCount := 0 } })).endSensorFaults
      x).onSide x SideState.readySlot

/-- The glare unit takes the frame, and the developer returns to IDLE (R60, R80 to R83). -/
def SideState.handFrame (d : SideState) (p : Profile) (f : FrameNo) : SideState :=
  { d.updateGlare p f d.dev.zones with dev := d.dev.idle }

theorem State.goodFrameEnd_eq (s : State) (x : Side) :
    s.goodFrameEnd x =
      match ((s.closeGood x).side x).dev.frame, ((s.closeGood x).side x).dev.inputs with
      | some f, some inp =>
        ((s.closeGood x).onSide x (fun d => d.handFrame ((s.closeGood x).profileOf x inp.bank) f)).meterFrame x inp
          ((s.closeGood x).side x).dev.zones
      | _, _ => s.closeGood x := rfl

theorem SideState.SameQueues.handFrame (d : SideState) (p : Profile) (f : FrameNo) : d.SameQueues (d.handFrame p f) :=
  (SideState.SameQueues.updateGlare d p f d.dev.zones).trans
    ⟨rfl, rfl, rfl, by rw [congrArg SideState.dev (SideState.updateGlare_frame d p f d.dev.zones :)]; rfl, rfl⟩

theorem State.goodFrameEnd_mild (s : State) (x : Side) : s.Mild lat (s.goodFrameEnd x) := by
  have hport : s.Mild lat (s.onSide x (fun d =>
      { d with port := { d.port with phase := .closed, goodCount := satSucc d.port.goodCount 255, badCount := 0 } })) :=
    .onSide_same ⟨rfl, rfl, rfl, rfl, rfl⟩
  have hclose : s.Mild lat (s.closeGood x) :=
    .trans (.trans hport (State.endSensorFaults_mild _ x)) (.onSide_same (.readySlot _))
  rw [State.goodFrameEnd_eq]
  split
  · exact (hclose.thenOnSide (.handFrame _ _ _)).trans (State.meterFrame_mild _ x _ _)
  · exact hclose

theorem State.frameEnd_mild (s : State) (x : Side) : s.Mild lat (s.frameEnd x) := by
  unfold State.frameEnd
  dsimp only
  split
  · exact .refl s
  · exact State.malformed_mild s x _ _
  split
  · exact State.goodFrameEnd_mild s x
  · exact State.malformed_mild s x _ _

theorem SideState.SameQueues.losePort (d : SideState) : d.SameQueues d.losePort := by
  unfold SideState.losePort
  dsimp only
  split
  · exact (SideState.SameQueues.discardFrame d).trans ⟨rfl, rfl, rfl, rfl, by rw [SideState.discardFrame_port]⟩
  · exact ⟨rfl, rfl, rfl, rfl, rfl⟩

theorem State.lossExpiry_mild (s : State) (x : Side) : s.Mild lat (s.lossExpiry x) := by
  rw [State.lossExpiry_eq]
  exact ((State.Mild.onSide_same (.losePort _)).thenRaise _ _).trans (State.swapPending_mild _ x)

end Sys2Proof.Machine
end

section
/-! Every step keeps the laws of the queues: the events of the output and of the links, the directives, and the step. -/

namespace Sys2Proof.Machine

variable {lat : Prop} {s t u : State} {x l : Side}

theorem State.Mild.ite {c : Prop} [Decidable c] (ht : s.Mild lat t) (hu : s.Mild lat u) : s.Mild lat (if c then t else u) := by
  split
  · exact ht
  · exact hu

/-! ## Articulation and output (R99, R101, R133, R147) -/

theorem State.setAngle_mild (s : State) (a : Int) : s.Mild lat (s.setAngle a) := by
  have h : s.Mild lat { s with artic := { angle := clamp a (-900) 900, tick := s.tick, stale := false } } := .of_eq rfl rfl
  unfold State.setAngle
  dsimp only
  split
  · exact h.thenEnd _
  · exact h

theorem State.articulationExpiry_mild (s : State) : s.Mild lat s.articulationExpiry := by
  unfold State.articulationExpiry
  refine .ite (.refl s) (.ite (.refl s) (.thenRaise ?_ _ _))
  exact .of_eq rfl rfl

theorem State.closeOutputFrame_mild (s : State) (x : Side) : s.Mild lat (s.closeOutputFrame x) := by
  unfold State.closeOutputFrame
  dsimp only
  split
  · exact .refl s
  · refine .ite (.thenEnd (.thenOnSide (.onSide_same ?_) ?_) _) (.onSide_same ?_) <;> exact ⟨rfl, rfl, rfl, rfl, rfl⟩

theorem State.reportView_mild (x : Side) (s : State) (r : ViewReport) : s.Mild lat (State.reportView x s r) := by
  cases r with
  | setStale => exact .thenRaise (.onComp _) _ _
  | setLost n => exact .thenRaise (.onComp _) _ _
  | endStale => exact .thenEnd (.onComp _) _
  | endLost => exact .thenEnd (.onComp _) _

/-- A run of mild changes is mild. -/
theorem State.Mild.foldl {α : Type} {f : State → α → State} (as : List α) (h : ∀ (s : State) (a : α), s.Mild lat (f s a)) (s : State) :
    s.Mild lat (as.foldl f s) := by
  induction as generalizing s with
  | nil => exact .refl s
  | cons a as ih => exact (h s a).trans (ih _)

theorem State.updateView_mild (s : State) (x : Side) (fresh : Bool) : s.Mild lat (s.updateView x fresh) :=
  .trans (.onComp _) (.foldl _ (State.reportView_mild x) _)

theorem State.checkEcho_mild (s : State) (x : Side) : s.Mild lat (s.checkEcho x) := by
  unfold State.checkEcho
  split
  · dsimp only
    split
    · exact .thenRaise (.onComp _) _ _
    · exact .onComp _
    split
    · exact .thenEnd (.onComp _) _
    · exact .onComp _
  · exact .refl s

theorem State.startOutputFrame_mild (s : State) (x : Side) : s.Mild lat (s.startOutputFrame x) := by
  unfold State.startOutputFrame
  exact (((((((State.Mild.onComp _).trans (.onSide_same (.resolveSlots _ _ _ _))).trans (State.closeOutputFrame_mild _ x)).trans
    (State.updateView_mild _ x _)).trans (.onComp _)).trans (.onComp _)).trans (State.checkEcho_mild _ x)).trans (.onComp _)

theorem State.statusWord_mild (s : State) (l : Side) (echo : BitVec 32) (panel : Word) : s.Mild lat (s.statusWord l echo panel) := by
  unfold State.statusWord
  split
  · exact .onComp _
  · exact .refl s

/-! ## Reads of the frame store (R118, R120 to R124) -/

theorem State.uncorrectableFrame_mild (s : State) (x : Side) (n : SlotNo) (addr syn : Nat) :
    s.Mild lat (s.uncorrectableFrame x n addr syn) := by
  have offer : ∀ (s : State) (e : LogRecord), s.Mild lat (s.offerFrame e) := fun _ _ => .of_eq rfl rfl
  unfold State.uncorrectableFrame
  exact .thenRaise (.trans (.onSide_same ⟨rfl, rfl, rfl, rfl, rfl⟩) (offer _ _)) _ _

theorem State.readFrameWord_mild (s : State) (x : Side) (n : SlotNo) (addr : Nat) : s.Mild lat (s.readFrameWord x n addr).2 := by
  unfold State.readFrameWord
  dsimp only
  split
  · exact .of_eq rfl rfl
  · unfold State.reportCorrected
    refine .thenRaise ?_ _ _
    exact .of_eq rfl rfl
  · refine .trans (t := { s with frameStore := { s.frameStore with
      injection := (takeInjection s.frameStore.injection addr).2, lastServed := composerOf x } }) (.of_eq rfl rfl) ?_
    exact State.uncorrectableFrame_mild _ x n addr _

theorem State.serveReads_mild (n : Nat) (q : Sided LineReads) (s : State) : s.Mild lat (State.serveReads n q s).2 := by
  induction n generalizing q s with
  | zero => exact .refl s
  | succ n ih =>
    unfold State.serveReads
    split
    · exact .refl s
    dsimp only
    split
    · exact .refl s
    · exact (State.readFrameWord_mild _ _ _ _).trans (ih _ _)

theorem State.sendPixels_mild (s : State) (x : Side) (y : Nat) (ws : List (Option (BitVec 64))) : s.Mild lat (s.sendPixels x y ws) := by
  unfold State.sendPixels
  exact .onLink _ ⟨rfl, rfl, rfl, fun h => h, fun _ => rfl⟩

/-! ## Side restart (R14, R22, R51, R190, R193) -/

theorem State.setLinkDown_mild (s : State) (l : Side) (d : Word) : s.Mild lat (s.setLinkDown l d) := by
  unfold State.setLinkDown
  split
  · exact .thenRaise (.onLink _ ⟨rfl, rfl, rfl, fun h => h, fun _ => rfl⟩) _ _
  · exact .refl s

theorem Bus.restarted_length (b : Bus) : b.restarted.buffer.length ≤ 16 := by
  unfold Bus.restarted
  split
  · exact Nat.zero_le _
  · simp only [List.length_take]; omega

/-- A restarted side has no pending exposure and no frame record, and keeps its pending edits (R14, R51). -/
theorem SideState.restarted_queues (d : SideState) :
    d.restarted.exposure.pendingQueue = [] ∧ d.restarted.history = [] ∧ d.restarted.dev.edits.length = d.dev.edits.length := by
  refine ⟨rfl, rfl, ?_⟩
  simp only [SideState.restarted, SideState.restartPort, Developer.idle]
  split
  · exact (SideState.SameQueues.discardFrame d).edits
  · rfl

theorem State.restartSide_mild (s : State) (x : Side) : s.Mild lat (s.restartSide x) := by
  have hrestart : ∀ s : State, s.Mild lat (s.onSide x SideState.restarted) := fun s => by
    obtain ⟨hq, hh, he⟩ := SideState.restarted_queues (s.side x)
    refine .onSide _ (fun hb => ⟨Bus.restarted_length _, by rw [hq]; exact Nat.zero_le _, by rw [hh]; exact Nat.zero_le _,
      by rw [he]; exact hb.2.2.2⟩) (fun _ _ => ?_)
    rw [SideState.PendingLawful, hq]
    exact ⟨.nil, fun p hp => absurd hp (List.not_mem_nil)⟩
  have hedits : ∀ s : State, s.Mild lat (s.editsAtRestart x) := fun s => by
    unfold State.editsAtRestart
    split
    · exact .refl s
    · exact State.applyPendingEdits_mild s x
  have hlink : ∀ s : State, s.Mild lat (s.linkAtRestart x) := fun s => by
    have h : s.Mild lat (s.onLink x (fun k => { k with linkCond := false })) :=
      .onLink _ ⟨rfl, rfl, rfl, fun h => h, fun _ => rfl⟩
    unfold State.linkAtRestart
    dsimp only
    split
    · exact h
    · exact h.trans (State.setLinkDown_mild _ x _)
  exact ((((State.swapPending_mild s x).trans (hrestart _)).trans (.foldl _ (fun s i => .endFault i) _)).trans (hedits _)).trans (hlink _)

/-! ## The bodies of the directives -/

theorem State.forceSides_mild (b : Bank) (xs : List Side) (s : State) : s.Mild lat (State.forceSides b xs s).2 :=
  .forSides (fun _ _ => .onSide_same ⟨rfl, rfl, rfl, rfl, rfl⟩) xs s

theorem State.autoSides_mild (xs : List Side) (s : State) : s.Mild lat (State.autoSides xs s).2 :=
  .forSides (fun _ _ => .onSide_same ⟨rfl, rfl, rfl, rfl, rfl⟩) xs s

theorem State.aimSides_mild (dx dy : Int) (xs : List Side) (s : State) : s.Mild lat (State.aimSides dx dy xs s).2 :=
  .forSides (fun _ _ => .onSide_same ⟨rfl, rfl, rfl, rfl, rfl⟩) xs s

theorem State.trimSides_mild (v : Int) (xs : List Side) (s : State) : s.Mild lat (State.trimSides v xs s).2 :=
  .forSides (fun _ _ => .onSide_same ⟨rfl, rfl, rfl, rfl, rfl⟩) xs s

theorem State.modeSides_mild (m : OutputMode) (xs : List Side) (s : State) : s.Mild lat (State.modeSides m xs s).2 :=
  .forSides (fun _ _ => .onComp _) xs s

/-- A SERVICE write is queued on each side named only where every buffer named has room (R205). -/
theorem State.writeSides_mild (reg val : Word) {xs : List Side} {f : BitVec 2} (hx : sidesField f = some xs) (s : State) :
    s.Mild lat (State.writeSides reg val xs s).2 := by
  unfold State.writeSides
  split
  · next h =>
    have room : ∀ x ∈ xs, (s.side x).bus.buffer.length < 16 := fun x hx => by simpa using List.all_eq_true.mp h x hx
    rcases sidesField_cases hx with rfl | rfl | rfl
    · exact State.serviceWrite_mild reg val (room _ (by simp))
    · exact State.serviceWrite_mild reg val (room _ (by simp))
    · refine (State.serviceWrite_mild reg val (room .left (by simp))).trans (State.serviceWrite_mild reg val ?_)
      have hother : (State.serviceWrite reg val s .left).side .right = s.side .right := (State.serviceWrite_frame reg val s .left).other
      rw [hother]
      exact room .right (by simp)
  · exact .refl s

/-- The edits accepted leave a side with at most 64 pending (R56, R167). -/
theorem EditKind.judge_length (k : EditKind) (share i held : Nat) (projected sites : List DefectEntry) (h : held ≤ 64) :
    held + (k.judge share i held projected sites).1.length ≤ 64 := by
  induction sites generalizing i held projected with
  | nil => exact h
  | cons e es ih =>
    unfold EditKind.judge
    dsimp only
    split
    · next ha =>
      have hroom : held + 1 ≤ 64 := by
        by_contra hn
        unfold EditKind.accepts at ha
        rw [if_pos (by omega)] at ha
        cases ha
      have := ih (i + 1) (held + 1) (applyEdit projected (k.edit e)) hroom
      simp only [List.length_cons]
      omega
    · exact ih _ _ _ h

theorem State.editSide_mild (k : EditKind) (sites : List DefectEntry) (x : Side) (s : State) :
    s.Mild lat (State.editSide k sites x s).2 := by
  have hread := ((State.clearDefectLoss_steps s x).trans (State.readList_steps _ x [])).mild (lat := lat)
  unfold State.editSide
  dsimp only
  refine hread.trans (.onSide _ (fun hb => ⟨hb.1, hb.2.1, hb.2.2.1, ?_⟩) (fun _ hp => hp))
  have h := EditKind.judge_length k (((s.clearDefectLoss x).readList x []).2.shareOf x) 0 _
    (applyEdits ((s.clearDefectLoss x).readList x []).1 ((((s.clearDefectLoss x).readList x []).2.side x).dev.edits)) sites hb.2.2.2
  simpa only [List.length_append] using h

theorem State.editSides_mild (k : EditKind) (sites : List DefectEntry) (xs : List Side) (s : State) :
    s.Mild lat (State.editSides k sites xs s).2 := by
  induction xs generalizing s with
  | nil => exact .refl s
  | cons x xs ih => exact (State.editSide_mild k sites x s).trans (ih _)

theorem State.editDirective_mild (k : EditKind) (p : Packet) (s : State) : s.Mild lat (State.editDirective k p s).2 := by
  unfold State.editDirective
  dsimp only
  split
  · split
    · exact .refl s
    split
    · exact .refl s
    · exact State.editSides_mild _ _ _ s
  · exact .refl s

theorem State.loadDirective_mild (x : Side) (tb : TableId) (o c : Nat) (ws : List Word) (s : State) :
    s.Mild lat (State.loadDirective x tb o c ws s).2 := by
  unfold State.loadDirective
  split
  · exact .refl s
  split
  · exact .refl s
  split
  · exact .refl s
  · have hwrite := (State.writeTableWords_steps s x (tableAddr x tb ((s.side x).tables.ctl.get tb).active.other o) ws).mild (lat := lat)
    unfold State.loadShadow
    dsimp only
    exact hwrite.thenOnSide ⟨rfl, rfl, rfl, rfl, rfl⟩

theorem State.commitDirective_mild (l x : Side) (set : BitVec 13) (s : State) : s.Mild lat (State.commitDirective l x set s).2 := by
  have hread := (State.validate_steps x (namedTables set) s).mild (lat := lat)
  have haccept : ∀ s : State, s.Mild lat (State.acceptCommit l x set s).2 := fun s => by
    unfold State.acceptCommit
    split <;> dsimp only
    · exact .onSide_same ⟨rfl, rfl, rfl, rfl, rfl⟩
    · exact State.swapSet_mild s x _
  unfold State.commitDirective
  dsimp only
  split
  · exact .refl s
  split
  · exact .refl s
  split
  · exact .refl s
  split
  · exact .refl s
  split
  · exact hread
  · exact hread
  · exact hread.trans (haccept _)

theorem State.lockDirective_mild (c : LockClass) (s : State) : s.Mild lat (State.lockDirective c s).2 := by
  unfold State.lockDirective
  split
  · exact .refl s
  · exact .of_eq rfl rfl

theorem State.splitDirective_mild (share : Nat) (s : State) : s.Mild lat (State.splitDirective share s).2 := by
  unfold State.splitDirective
  split
  · exact .refl s
  split
  · exact .refl s
  split
  · exact .of_eq rfl rfl
  · exact .refl s

theorem State.readDefectEntry_mild (s : State) (x : Side) (i : Nat) : s.Mild lat (s.readDefectEntry x i).2 := by
  have hread := State.readEntry_steps s x i
  unfold State.readDefectEntry
  dsimp only
  split
  · exact .refl s
  split
  · exact .refl s
  split
  · exact hread.mild
  · exact ((hread.trans (State.loseEntry_steps _ x)).trans (State.writeList_steps _ x _)).mild

theorem State.acknowledge_mild (i : RecordId) (s : State) : s.Mild lat (State.acknowledge i s).2 := by
  unfold State.acknowledge
  dsimp only
  split
  · refine ⟨fun l => ?_, fun x hb => by simpa using hb, fun _ x hp => by simpa using hp⟩
    dsimp only
    rw [State.notify_link]
    split
    · next h => exact .enqueue _ _ (State.isUp_of_routesTo (s := s) (by simpa using h.1))
    · exact .refl _
  · exact .refl s
  · exact .refl s

theorem State.maskLinks_mild (m : BitVec 13) (ls : List Side) (s : State) : s.Mild lat (State.maskLinks m ls s).2 :=
  .forSides (fun _ _ => .onLink _ ⟨rfl, rfl, rfl, fun h => h, fun _ => rfl⟩) ls s

theorem State.clearLogs_mild (f t : Bool) (s : State) : s.Mild lat (s.clearLogs f t) := by
  have check : ∀ s : State, s.Mild lat s.checkCorrected := fun s => by
    unfold State.checkCorrected
    refine .ite (.thenEnd ?_ _) (.refl s)
    exact .of_eq rfl rfl
  unfold State.clearLogs
  exact .trans (by cases f <;> cases t <;> exact .of_eq rfl rfl) (check _)

theorem State.armFrame_mild (j : Injection) (s : State) : s.Mild lat (State.armFrame j s) := .of_eq rfl rfl

theorem State.armTable_mild (j : Injection) (s : State) : s.Mild lat (State.armTable j s) := .of_eq rfl rfl

theorem State.injectDirective_mild {arm : Injection → State → State} (ha : ∀ j s, State.Mild lat s (arm j s)) (memory size : Nat)
    (p : Packet) (s : State) : s.Mild lat (State.injectDirective memory size arm p s).2 := by
  unfold State.injectDirective
  split
  · split
    · split
      · exact ha _ s
      · exact .refl s
    · exact .refl s
  · exact .refl s

/-! ## What a whole event keeps -/

/-- The bounds of a link's queues (R184, R196). -/
def Link.Bounded (k : Link) : Prop := k.replies.length ≤ 8 ∧ k.notices.Nodup

/-- The queues of a link that is not UP are empty, and its overrun flag is clear (R187, R192, R194). -/
def Link.Quiet (k : Link) : Prop := k.state ≠ .up → k.replies = [] ∧ k.notices = [] ∧ k.overrun = false

/-- A change of a link that keeps its laws. -/
structure Link.Keeps (k m : Link) : Prop where
  bounded : k.Bounded → m.Bounded
  quiet : k.Quiet → m.Quiet

/-- A change of the part that keeps the laws of all queues. -/
structure State.Keeps (lat : Prop) (s t : State) : Prop where
  link : ∀ l, (s.link l).Keeps (t.link l)
  bounded : ∀ x, (s.side x).Bounded → (t.side x).Bounded
  pending : lat → ∀ x, (s.side x).PendingLawful → (t.side x).PendingLawful

theorem Link.Calm.keeps {k m : Link} (h : k.Calm m) : k.Keeps m where
  bounded hb := ⟨by rw [h.replies]; exact hb.1, h.nodup hb.2⟩
  quiet hq hm := by
    have hs : k.state ≠ .up := h.state ▸ hm
    obtain ⟨hr, hn, ho⟩ := hq hs
    exact ⟨List.length_eq_zero_iff.mp (by rw [h.replies, hr]; rfl), (h.quiet hs).trans hn, h.overrun.trans ho⟩

theorem State.Mild.keeps (h : s.Mild lat t) : s.Keeps lat t := ⟨fun l => (h.link l).keeps, h.bounded, h.pending⟩

theorem State.Keeps.trans (h : s.Keeps lat t) (g : t.Keeps lat u) : s.Keeps lat u where
  link l := ⟨fun hb => (g.link l).bounded ((h.link l).bounded hb), fun hq => (g.link l).quiet ((h.link l).quiet hq)⟩
  bounded x hb := g.bounded x (h.bounded x hb)
  pending hl x hp := g.pending hl x (h.pending hl x hp)

theorem State.Keeps.onLink (f : Link → Link) (h : (s.link l).Keeps (f (s.link l))) : s.Keeps lat (s.onLink l f) where
  link m := by
    rw [State.link_onLink]
    split
    · next e => exact e ▸ h
    · exact (Link.Calm.refl _).keeps
  bounded _ h := h
  pending _ _ h := h

/-- A link that is UP with bounded queues meets its laws. -/
theorem Link.Keeps.of_up {k m : Link} (hu : m.state = .up) (hb : k.Bounded → m.Bounded) : k.Keeps m := ⟨hb, fun _ hn => absurd hu hn⟩

/-! ## Links (R185 to R188, R191 to R194) -/

theorem State.queueOn_mild (i : RecordId) (h : (s.link l).state = .up) : s.Mild lat (s.queueOn l i) := by
  unfold State.queueOn
  split
  · exact .onLink _ (.enqueue _ _ h)
  · exact .refl s

theorem State.queueAll_mild (is : List RecordId) (h : (s.link l).state = .up) :
    s.Mild lat (is.foldl (fun s i => s.queueOn l i) s) := by
  induction is generalizing s with
  | nil => exact .refl s
  | cons i is ih =>
    have hi := State.queueOn_mild (lat := lat) i h
    exact hi.trans (ih ((hi.link l).state.trans h))

theorem State.handOver_mild (s : State) (x : Side) : s.Mild lat (s.handOver x) := by
  unfold State.handOver
  split
  · next h => exact State.queueAll_mild _ (by simpa [State.isUp] using h)
  · exact .refl s

/-- The link port of a link that goes DOWN (R192): the first part of `State.enterDown`. -/
def Link.lowered (k : Link) : Link := { k with state := .down, replies := [], overrun := false, notices := [], forward := none }

theorem State.enterDown_after (s : State) (l : Side) (d : Word) : (s.onLink l Link.lowered).Mild lat (s.enterDown l d) := by
  have h : (s.onLink l Link.lowered).Mild lat
      ((((s.onLink l Link.lowered).onSide .left (fun d => { d with tables := d.tables.dropReservation l })).onSide .right
        (fun d => { d with tables := d.tables.dropReservation l })).onSide l
        (fun d => { d with exposure := { d.exposure with trim := 0 } })) :=
    .thenOnSide (.thenOnSide (.onSide_same ⟨rfl, rfl, rfl, rfl, rfl⟩) ⟨rfl, rfl, rfl, rfl, rfl⟩) ⟨rfl, rfl, rfl, rfl, rfl⟩
  exact (h.trans (State.handOver_mild _ l)).trans (State.setLinkDown_mild _ l d)

theorem State.enterDown_state (s : State) (l : Side) (d : Word) : ((s.enterDown l d).link l).state = .down := by
  have h := ((State.enterDown_after (lat := True) s l d).link l).state
  rw [h, State.onLink_link]
  rfl

theorem State.enterDown_keeps (s : State) (l : Side) (d : Word) : s.Keeps lat (s.enterDown l d) := by
  refine .trans (.onLink Link.lowered ⟨fun _ => ⟨Nat.zero_le _, .nil⟩, fun _ _ => ⟨rfl, rfl, rfl⟩⟩) (State.enterDown_after s l d).keeps

/-- A link that is not UP may begin TRAINING. -/
theorem State.train_keeps (h : (s.link l).state ≠ .up) : s.Keeps lat (s.onLink l (fun k => { k with state := .training })) :=
  .onLink _ ⟨fun hb => hb, fun hq _ => hq h⟩

theorem State.trainingRequest_keeps (s : State) (l : Side) : s.Keeps lat (s.trainingRequest l) := by
  unfold State.trainingRequest
  split
  · next h => exact State.train_keeps (by rw [h]; decide)
  · exact (State.Mild.refl s).keeps
  · exact (State.enterDown_keeps s l 1).trans (State.train_keeps (by rw [State.enterDown_state]; decide))

/-- DISPLAY_LINK_DOWN ends where it stands, as a link enters UP (R193): a part of `State.enterUp`. -/
def State.endLinkDown (s : State) (l : Side) : State :=
  if (s.link l).linkCond then
    (s.onLink l (fun k => { k with linkCond := false })).endFault (.side .displayLinkDown l)
  else s

theorem State.endLinkDown_mild (s : State) (l : Side) : s.Mild lat (s.endLinkDown l) :=
  .ite (.thenEnd (.onLink _ ⟨rfl, rfl, rfl, fun h => h, fun _ => rfl⟩) _) (.refl s)

theorem State.enterUp_eq (s : State) (l : Side) :
    s.enterUp l =
      (((s.onLink l (fun k => { k with state := .up, beenUp := true })).endLinkDown l).rebuild l).onComp l Composer.linkUp := rfl

theorem State.enterUp_keeps (s : State) (l : Side) : s.Keeps lat (s.enterUp l) := by
  have hup : s.Keeps lat (s.onLink l (fun k => { k with state := .up, beenUp := true })) := .onLink _ (.of_up rfl fun hb => hb)
  have hend := State.endLinkDown_mild (lat := lat) (s.onLink l (fun k => { k with state := .up, beenUp := true })) l
  have hstate := (hend.link l).state
  rw [State.onLink_link] at hstate
  rw [State.enterUp_eq]
  exact hup.trans ((hend.trans (State.queueAll_mild _ hstate)).trans (.onComp _)).keeps

theorem State.linkReady_keeps (s : State) (l : Side) : s.Keeps lat (s.linkReady l) := by
  unfold State.linkReady
  split
  · exact (State.Mild.refl s).keeps
  · exact State.enterUp_keeps s l
  · exact (State.Mild.refl s).keeps

theorem State.lossOfLock_keeps (s : State) (l : Side) : s.Keeps lat (s.lossOfLock l) := by
  unfold State.lossOfLock
  split
  · exact (State.Mild.refl s).keeps
  · exact State.enterDown_keeps s l 2
  · exact State.enterDown_keeps s l 1

theorem dropReady_length (es : List ReplyEntry) : (dropReady es).length ≤ es.length := by
  induction es with
  | nil => exact Nat.le_refl _
  | cons e es ih =>
    cases e with
    | ready r => exact Nat.le_succ _
    | reserved tag x => exact Nat.succ_le_succ ih

/-- The arbiter takes at most one entry from one of the queues (R186, R194). -/
theorem Link.arbitrate_bounded {k : Link} (f : FaultTable) (h : k.Bounded) : (k.arbitrate f).2.Bounded := by
  unfold Link.arbitrate
  split
  · exact ⟨h.1, h.2.erase _⟩
  · exact ⟨Nat.le_trans (dropReady_length _) h.1, h.2⟩
  · exact h

theorem State.sendSlot_keeps (s : State) (l : Side) (period : Fin 1300) : s.Keeps lat (s.sendSlot l period) := by
  unfold State.sendSlot
  split
  · next hup =>
    have hup : (s.link l).state = .up := by simpa [State.isUp] using hup
    split
    · exact .onLink _ (.of_up hup fun hb => hb)
    · have hstate := congrArg Link.state (Link.arbitrate_frame (s.link l) s.faults)
      exact .onLink _ (.of_up (hstate.trans hup) (Link.arbitrate_bounded s.faults))
  · exact .onLink _ ⟨fun hb => hb, fun hq => hq⟩

theorem State.linePeriod_keeps (s : State) (period : Fin 1300) : s.Keeps lat (s.linePeriod period) := by
  have hslots := (State.sendSlot_keeps (lat := lat) s .left period).trans (State.sendSlot_keeps _ .right period)
  have hserved : ∀ u : State, u.Mild lat { u with frameStore := { u.frameStore with lastServed := .rightComposer } } :=
    fun _ => .of_eq rfl rfl
  unfold State.linePeriod
  dsimp only
  split
  · exact hslots.trans (hserved _).keeps
  · exact hslots.trans ((((hserved _).trans (State.serveReads_mild _ _ _)).trans (State.sendPixels_mild _ .left _ _)).trans
      (State.sendPixels_mild _ .right _ _)).keeps

/-! ## Resets (R209) -/

theorem State.powerOn_keeps (s : State) : s.Keeps lat s.powerOn where
  link l := by
    rw [show s.powerOn.link l = Link.reset from State.reset_link l]
    exact ⟨fun _ => ⟨Nat.zero_le _, .nil⟩, fun _ _ => ⟨rfl, rfl, rfl⟩⟩
  bounded x _ := by
    rw [show s.powerOn.side x = SideState.reset from State.reset_side x]
    exact ⟨Nat.zero_le _, Nat.zero_le _, Nat.zero_le _, Nat.zero_le _⟩
  pending _ x _ := by
    rw [show s.powerOn.side x = SideState.reset from State.reset_side x]
    exact ⟨.nil, fun p hp => absurd hp List.not_mem_nil⟩

theorem State.resetAsserted_keeps (s : State) : s.Keeps lat s.resetAsserted := by
  have hbus : s.Mild lat ((s.onSide .left (fun d => { d with bus := d.bus.cutOff })).onSide .right
      (fun d => { d with bus := d.bus.cutOff })) := .thenOnSide (.onSide_same ⟨rfl, rfl, rfl, rfl, rfl⟩) ⟨rfl, rfl, rfl, rfl, rfl⟩
  have hlink : ∀ (s : State) (l : Side), s.Mild lat (s.onLink l (fun k => { k with forward := none })) := fun s l =>
    .onLink _ ⟨rfl, rfl, rfl, fun h => h, fun _ => rfl⟩
  have hreset : ∀ u : State, u.Mild lat { u with inReset := true } := fun _ => .of_eq rfl rfl
  exact (((hbus.trans (hlink _ .left)).trans (hlink _ .right)).trans (hreset _)).keeps

/-! ## Directives (R195 to R199) -/

/-- A directive takes a place in the reply queue where one is free, and its body keeps the laws (R195 to R197). -/
theorem State.admission_keeps {tag : BitVec 8} {body : State → Response × State} (h : s.Mild lat (body s).2) :
    s.Keeps lat (s.admission l tag body) := by
  unfold State.admission
  split
  · next hup =>
    have hup : (s.link l).state = .up := by simpa [State.isUp] using hup
    split
    · next hroom =>
      refine ⟨fun m => ?_, h.bounded, h.pending⟩
      dsimp only
      rw [State.respond, State.link_onLink]
      split
      · next e =>
        subst e
        refine .of_up ((h.link m).state.trans hup) fun hb => ⟨?_, (h.link m).nodup hb.2⟩
        simp only [List.length_append, List.length_cons, List.length_nil, (h.link m).replies]
        omega
      · exact (h.link m).keeps
    · exact .onLink _ (.of_up hup fun hb => hb)
  · exact (State.Mild.refl s).keeps

theorem State.directive_keeps {p : Packet} {body : State → Response × State} (h : s.Mild lat (body s).2) :
    s.Keeps lat (s.directive l p body) := by
  refine State.admission_keeps ?_
  split
  · exact .refl s
  · exact h

theorem State.plainDirective_keeps {p : Packet} {body : State → Response × State} (h : s.Mild lat (body s).2) :
    s.Keeps lat (s.plainDirective l p body) := by
  refine State.directive_keeps ?_
  split
  · exact h
  · exact .refl s

theorem State.sidesDirective_keeps {p : Packet} {body : List Side → State → Response × State}
    (h : ∀ xs, sidesField p.side = some xs → s.Mild lat (body xs s).2) : s.Keeps lat (s.sidesDirective l p body) := by
  refine State.plainDirective_keeps ?_
  split
  · next xs hx => exact h xs hx
  · exact .refl s

theorem State.readItem_keeps {p : Packet} {item : Word} {body : State → Response × State} (h : s.Mild lat (body s).2) :
    s.Keeps lat (s.readItem l p item body) := by
  refine State.plainDirective_keeps ?_
  split
  · exact h
  · exact .refl s

theorem State.readSide_keeps {p : Packet} {item : Word} {body : Side → State → Response × State}
    (h : ∀ x, s.Mild lat (body x s).2) : s.Keeps lat (s.readSide l p item body) := by
  refine State.readItem_keeps ?_
  split
  · exact h _
  · exact .refl s

/-- An event taken keeps what its effect keeps; while the reset input is asserted it has none (R209). -/
theorem State.take_keeps {f : State → State} (ht : s.take f = .next t) (h : s.Keeps lat (f s)) : s.Keeps lat t := by
  cases hr : s.inReset with
  | true =>
    rw [State.take_inReset s f hr] at ht
    cases ht
    exact (State.Mild.refl s).keeps
  | false =>
    rw [State.take_eq s f hr] at ht
    cases ht
    exact h

/-! ## The step -/

/-- The exposure latency in use on both sides is 1 to 3 frames (R160). -/
def State.LatencyLawful (s : State) : Prop := ∀ x, 1 ≤ (s.sensorOf x).nLat ∧ (s.sensorOf x).nLat ≤ 3

theorem State.TablesLawful.latency (h : s.TablesLawful) : s.LatencyLawful := by
  intro x
  obtain ⟨hpass, -, -⟩ := h.2 x .sensor _ rfl
  exact hpass (0, _) (List.mem_cons_self)

theorem exec_keeps (i : Instr) (s t : State) (h : exec i s = .next t) : s.Keeps s.LatencyLawful t := by
  cases i with
  | frameBeginMarker x =>
    rw [exec_frameBeginMarker] at h
    exact State.take_keeps h (State.frameBegin_mild s x).keeps
  | line x ws =>
    rw [exec_line] at h
    exact State.take_keeps h (State.receiveLine_mild s x ws).keeps
  | frameEndMarker x =>
    rw [exec_frameEndMarker] at h
    exact State.take_keeps h (State.frameEnd_mild s x).keeps
  | lossExpiry x =>
    rw [exec_lossExpiry] at h
    refine State.take_keeps h ?_
    split
    · exact (State.lossExpiry_mild s x).keeps
    · exact (State.Mild.refl s).keeps
  | sensorBusResponse x r =>
    rw [exec_sensorBusResponse] at h
    refine State.take_keeps h ?_
    unfold State.busResponse
    split
    · split
      · exact (State.attemptAcked_mild s x (fun hl => hl x)).keeps
      · exact (State.attemptFailed_mild s x).keeps
    · exact (State.Mild.refl s).keeps
  | responseTimerExpiry x =>
    rw [exec_responseTimerExpiry] at h
    refine State.take_keeps h ?_
    split
    · exact (State.attemptFailed_mild s x).keeps
    · exact (State.Mild.refl s).keeps
  | articulationTimerExpiry =>
    rw [exec_articulationTimerExpiry] at h
    exact State.take_keeps h (State.articulationExpiry_mild s).keeps
  | outputFrameStart x =>
    rw [exec_outputFrameStart] at h
    exact State.take_keeps h (State.startOutputFrame_mild s x).keeps
  | linePeriodStart period =>
    rw [exec_linePeriodStart] at h
    exact State.take_keeps h (State.linePeriod_keeps s period)
  | trainingRequest l =>
    rw [exec_trainingRequest] at h
    exact State.take_keeps h (State.trainingRequest_keeps s l)
  | ready l =>
    rw [exec_ready] at h
    exact State.take_keeps h (State.linkReady_keeps s l)
  | lossOfLock l =>
    rw [exec_lossOfLock] at h
    exact State.take_keeps h (State.lossOfLock_keeps s l)
  | statusWord l echo panel =>
    rw [exec_statusWord] at h
    exact State.take_keeps h (State.statusWord_mild s l echo panel).keeps
  | packetDropped _ _ =>
    rw [exec_packetDropped] at h
    exact State.take_keeps h (State.Mild.refl s).keeps
  | unknownDirective l _ p =>
    rw [exec_unknownDirective] at h
    exact State.take_keeps h (State.admission_keeps (.refl s))
  | frameHistory l p =>
    rw [exec_frameHistory] at h
    exact State.take_keeps h (State.readSide_keeps fun x => by split <;> exact .refl s)
  | faultRecord l p =>
    rw [exec_faultRecord] at h
    exact State.take_keeps h (State.readItem_keeps (by split <;> exact .refl s))
  | errorLog l p =>
    rw [exec_errorLog] at h
    refine State.take_keeps h (State.readItem_keeps ?_)
    split
    · exact .refl s
    · split <;> exact .refl s
  | exposureState l p =>
    rw [exec_exposureState] at h
    exact State.take_keeps h (State.readSide_keeps fun x => .refl s)
  | glareLevels l p =>
    rw [exec_glareLevels] at h
    exact State.take_keeps h (State.readSide_keeps fun x => by split <;> exact .refl s)
  | windowState l p =>
    rw [exec_windowState] at h
    exact State.take_keeps h (State.readSide_keeps fun x => .refl s)
  | slotState l p =>
    rw [exec_slotState] at h
    exact State.take_keeps h (State.readSide_keeps fun x => .refl s)
  | tableState l p =>
    rw [exec_tableState] at h
    exact State.take_keeps h (State.readSide_keeps fun x => .refl s)
  | defectEntry l p =>
    rw [exec_defectEntry] at h
    exact State.take_keeps h (State.readSide_keeps fun x => State.readDefectEntry_mild s x _)
  | partState l p =>
    rw [exec_partState] at h
    exact State.take_keeps h (State.readItem_keeps (.refl s))
  | loadTable l p =>
    rw [exec_loadTable] at h
    refine State.take_keeps h (State.directive_keeps ?_)
    split
    · exact State.loadDirective_mild _ _ _ _ _ s
    · exact .refl s
  | commit l p =>
    rw [exec_commit] at h
    refine State.take_keeps h (State.plainDirective_keeps ?_)
    split
    · split
      · exact .refl s
      · exact State.commitDirective_mild _ _ _ s
    · exact .refl s
  | setProfileModeForce l p =>
    rw [exec_setProfileModeForce] at h
    refine State.take_keeps h (State.sidesDirective_keeps fun xs _ => ?_)
    split
    · split
      · exact State.forceSides_mild _ xs s
      · exact .refl s
    · exact .refl s
  | setProfileModeAuto l p =>
    rw [exec_setProfileModeAuto] at h
    refine State.take_keeps h (State.sidesDirective_keeps fun xs _ => ?_)
    split
    · exact State.autoSides_mild xs s
    · exact .refl s
  | articulation l p =>
    rw [exec_articulation] at h
    exact State.take_keeps h (State.plainDirective_keeps (State.setAngle_mild s _))
  | aim l p =>
    rw [exec_aim] at h
    exact State.take_keeps h (State.sidesDirective_keeps fun xs _ => State.aimSides_mild _ _ xs s)
  | trim l p =>
    rw [exec_trim] at h
    exact State.take_keeps h (State.sidesDirective_keeps fun xs _ => State.trimSides_mild _ xs s)
  | outputMode l p =>
    rw [exec_outputMode] at h
    refine State.take_keeps h (State.sidesDirective_keeps fun xs _ => ?_)
    split
    · exact State.modeSides_mild _ xs s
    · exact .refl s
  | defectAdd l p =>
    rw [exec_defectAdd] at h
    exact State.take_keeps h (State.directive_keeps (State.editDirective_mild .add p s))
  | defectRemove l p =>
    rw [exec_defectRemove] at h
    exact State.take_keeps h (State.directive_keeps (State.editDirective_mild .remove p s))
  | defectSplit l p =>
    rw [exec_defectSplit] at h
    exact State.take_keeps h (State.plainDirective_keeps (State.splitDirective_mild _ s))
  | ackFault l p =>
    rw [exec_ackFault] at h
    refine State.take_keeps h (State.plainDirective_keeps ?_)
    split
    · exact State.acknowledge_mild _ s
    · exact .refl s
  | noticeMask l p =>
    rw [exec_noticeMask] at h
    refine State.take_keeps h (State.plainDirective_keeps ?_)
    split
    · split
      · exact .refl s
      · exact State.maskLinks_mild _ _ s
    · exact .refl s
  | clearErrorLog l p =>
    rw [exec_clearErrorLog] at h
    refine State.take_keeps h (State.plainDirective_keeps ?_)
    split
    · exact State.clearLogs_mild _ _ s
    split
    · exact State.clearLogs_mild _ _ s
    split
    · exact State.clearLogs_mild _ _ s
    · exact .refl s
  | injectErrorFrameStore l p =>
    rw [exec_injectErrorFrameStore] at h
    exact State.take_keeps h (State.directive_keeps (State.injectDirective_mild State.armFrame_mild _ _ p s))
  | injectErrorTableStore l p =>
    rw [exec_injectErrorTableStore] at h
    exact State.take_keeps h (State.directive_keeps (State.injectDirective_mild State.armTable_mild _ _ p s))
  | lock l p =>
    rw [exec_lock] at h
    refine State.take_keeps h (State.plainDirective_keeps ?_)
    split
    · exact State.lockDirective_mild _ s
    · exact .refl s
  | sensorWrite l p =>
    rw [exec_sensorWrite] at h
    exact State.take_keeps h (State.sidesDirective_keeps fun xs hx => State.writeSides_mild _ _ hx s)
  | restartSide l p =>
    rw [exec_restartSide] at h
    exact State.take_keeps h (State.sidesDirective_keeps fun xs _ => .forSides (fun s x => State.restartSide_mild s x) xs s)
  | powerOnReset =>
    rw [exec_powerOnReset] at h
    cases h
    exact State.powerOn_keeps s
  | resetInputAsserted =>
    rw [exec_resetInputAsserted] at h
    cases h
    exact State.resetAsserted_keeps s

theorem State.idle_mild (s : State) : s.Mild lat s.idle := by
  unfold State.idle
  split
  · exact .refl s
  split
  · exact .of_eq rfl rfl
  · exact .of_eq rfl rfl

theorem step_keeps {s t : State} (h : step s = .next t) : s.Keeps s.LatencyLawful t := by
  cases hp : s.pending with
  | nil =>
    rw [step_of_empty hp] at h
    cases h
    exact (State.idle_mild s).keeps
  | cons i rest =>
    rw [step_of_cons hp] at h
    have hrest : s.Mild s.LatencyLawful { s with pending := rest } := .of_eq rfl rfl
    exact hrest.keeps.trans (exec_keeps i _ t h)

/-- Settles O7: each clause is a part of what every step keeps, `step_keeps`. -/
theorem everyStepKeepsTheQueueBounds : Obligations.EveryStepKeepsTheQueueBounds := by
  refine ⟨fun s t hs h x => ?_, fun s t htab hp h x => (step_keeps h).pending htab.latency x (hp x),
    fun s t hs h l => ((step_keeps h).link l).quiet (hs l)⟩
  obtain ⟨hrep, hnod, hbuf, hpend, hhist, hedits⟩ := hs x
  obtain ⟨hrep', hnod'⟩ := ((step_keeps h).link x).bounded ⟨hrep, hnod⟩
  obtain ⟨hbuf', hpend', hhist', hedits'⟩ := (step_keeps h).bounded x ⟨hbuf, hpend, hhist, hedits⟩
  exact ⟨hrep', hnod', hbuf', hpend', hhist', hedits'⟩

end Sys2Proof.Machine
end

section
/-! The good frame end (R7, R10, R11, R34 to R39, R44, R45, R60, R111). -/

namespace Sys2Proof.Machine

variable {s t u : State} {x : Side} {rs : List RecordId}

/-! ## SENSOR_LOSS and SENSOR_FRAME (R10, R11) -/

theorem State.endSensorFaults_within (s : State) (x : Side) :
    s.Within (s.endSensorFaults x) x [.side .sensorLoss x, .side .sensorFrame x] := by
  have loss : s.Within (s.endSensorLoss x) x [.side .sensorLoss x, .side .sensorFrame x] := by
    unfold State.endSensorLoss
    split
    · exact (State.Within.onSide s x _ _).endFault (by simp)
    · exact .refl s x _
  have frame : ∀ u : State, u.Within (u.endSensorFrame x) x [.side .sensorLoss x, .side .sensorFrame x] := fun u => by
    unfold State.endSensorFrame
    split
    · exact (State.Within.onSide u x _ _).endFault (by simp)
    · exact .refl u x _
  rw [State.endSensorFaults_eq]
  exact loss.trans (frame _)

theorem State.endSensorLoss_side (s : State) (x : Side) :
    (s.endSensorLoss x).side x = { s.side x with port := { (s.side x).port with lossCond := false } } := by
  unfold State.endSensorLoss
  split
  · simp
  · next h =>
    have h : (s.side x).port.lossCond = false := by simpa using h
    rw [← h]

theorem State.endSensorFrame_side (s : State) (x : Side) :
    (s.endSensorFrame x).side x =
      { s.side x with port := { (s.side x).port with
          frameCond := if (s.side x).port.goodCount = 3 then false else (s.side x).port.frameCond } } := by
  unfold State.endSensorFrame
  split
  · next h => simp [h.1]
  · next h =>
    have keep : (if (s.side x).port.goodCount = 3 then false else (s.side x).port.frameCond) = (s.side x).port.frameCond := by
      split
      · next h3 => simpa [h3] using h
      · rfl
    rw [keep]

/-- Of its side the ends of SENSOR_LOSS and SENSOR_FRAME touch the two conditions alone. -/
theorem State.endSensorFaults_side (s : State) (x : Side) :
    (s.endSensorFaults x).side x =
      { s.side x with port := { (s.side x).port with
          lossCond := false,
          frameCond := if (s.side x).port.goodCount = 3 then false else (s.side x).port.frameCond } } := by
  rw [State.endSensorFaults_eq, State.endSensorFrame_side, State.endSensorLoss_side]

@[simp] theorem State.endSensorFaults_tableStore (s : State) (x : Side) : (s.endSensorFaults x).tableStore = s.tableStore := by
  simp only [State.endSensorFaults_eq, State.endSensorFrame, State.endSensorLoss]
  split <;> split <;> simp

/-- The records are CLEAR where the conditions stood (R10, R11). -/
theorem State.endSensorFaults_clear (s : State) (x : Side) :
    ((s.side x).port.lossCond = true → ((s.endSensorFaults x).faults.get (.side .sensorLoss x)).state = .clear) ∧
    ((s.side x).port.goodCount = 3 → (s.side x).port.frameCond = true →
      ((s.endSensorFaults x).faults.get (.side .sensorFrame x)).state = .clear) := by
  have hside := State.endSensorLoss_side s x
  refine ⟨fun h => ?_, fun h3 hc => ?_⟩
  · have hloss : ((s.endSensorLoss x).faults.get (.side .sensorLoss x)).state = .clear := by simp [State.endSensorLoss, h]
    rw [State.endSensorFaults_eq, State.endSensorFrame]
    split
    · simpa [FaultTable.get_set] using hloss
    · exact hloss
  · rw [State.endSensorFaults_eq, State.endSensorFrame, if_pos (by rw [hside]; exact ⟨h3, hc⟩)]
    simp

/-! ## The slots (R111) -/

/-- Making the FILLING slot READY reads the slots and the history alone. -/
theorem SideState.readySlot_port (d : SideState) (p : Port) :
    ({ d with port := p } : SideState).readySlot = { d.readySlot with port := p } := by
  unfold SideState.readySlot
  dsimp only
  cases d.store.slots.find .filling with
  | none => rfl
  | some n => cases d.store.slots.find .ready <;> rfl

/-- The FILLING slot becomes READY, and an older READY slot FREE (R111). -/
theorem SideState.readySlot_slots {d : SideState} (hd : d.SlotsLawful) {n : SlotNo} (hn : (d.store.slots.get n).state = .filling) :
    (d.readySlot.store.slots.get n).state = .ready ∧
      (d.readySlot.store.slots.get n).content = (d.store.slots.get n).content ∧
      (∀ m, (d.store.slots.get m).state = .ready → (d.readySlot.store.slots.get m).state = .free) ∧
      ∀ m c, (d.store.slots.get m).state = .ready → (d.store.slots.get m).content = some c →
        d.readySlot.history = writeOutcome d.history c.link .skipped := by
  have only : ∀ {m k : SlotNo}, (d.store.slots.get m).state = (d.store.slots.get k).state → (d.store.slots.get m).state ≠ .free →
      m = k := fun h hf => (hd.1 _ _ h).resolve_right hf
  unfold SideState.readySlot
  cases hf : d.store.slots.find .filling with
  | none => exact absurd hn (Slots.find_none hf n)
  | some n' =>
    have hn' := Slots.find_some hf
    obtain rfl : n = n' := only (hn.trans hn'.symm) (by rw [hn]; decide)
    cases hr : d.store.slots.find .ready with
    | none =>
      dsimp only
      refine ⟨by rw [SideState.setSlotState_slot, if_pos rfl], by rw [SideState.setSlotState_slot, if_pos rfl],
        fun m hm => absurd hm (Slots.find_none hr m), fun m _ hm => absurd hm (Slots.find_none hr m)⟩
    | some m' =>
      have hm' := Slots.find_some hr
      have hne : n ≠ m' := fun e => by rw [e, hm'] at hn; cases hn
      dsimp only
      refine ⟨by rw [SideState.setSlotState_slot, if_pos rfl], ?_, fun m hm => ?_, fun m c hm hc => ?_⟩
      · rw [SideState.setSlotState_slot, if_pos rfl]
        dsimp only
        rw [SideState.freeSlot_slot, if_neg hne]
      · obtain rfl : m = m' := only (hm.trans hm'.symm) (by rw [hm]; decide)
        rw [SideState.setSlotState_slot, if_neg hne.symm, SideState.freeSlot_slot, if_pos rfl, Slot.freed_state]
      · obtain rfl : m = m' := only (hm.trans hm'.symm) (by rw [hm]; decide)
        simp only [SideState.setSlotState, SideState.freeSlot, hc]

/-- Of the newest frame record all but the outcome stays (R111, R115). -/
theorem SideState.readySlot_head (d : SideState) :
    d.readySlot.history = d.history ∨ ∃ k, d.readySlot.history = writeOutcome d.history k .skipped := by
  have free : ∀ m, (d.freeSlot m .skipped).history = d.history ∨
      ∃ k, (d.freeSlot m .skipped).history = writeOutcome d.history k .skipped := fun m => by
    simp only [SideState.freeSlot]
    split
    · next c _ => exact .inr ⟨c.link, rfl⟩
    · exact .inl rfl
  unfold SideState.readySlot
  split
  · exact .inl rfl
  · dsimp only
    split
    · next m _ => exact free m
    · exact .inl rfl

/-- A part of the newest frame record that no outcome touches is as it was. -/
theorem SideState.readySlot_head_map {α : Type} (d : SideState) (f : FrameRecord → α)
    (hf : ∀ r o, f { r with outcome := o } = f r) : d.readySlot.history.head?.map f = d.history.head?.map f := by
  rcases SideState.readySlot_head d with h | ⟨k, h⟩
  · rw [h]
  · rw [h]
    cases d.history with
    | nil => rfl
    | cons r rs =>
      simp only [writeOutcome, List.map_cons, List.head?_cons, Option.map_some]
      split
      · rw [hf]
      · rfl

/-! ## The close of the frame -/

theorem State.closeGood_within (s : State) (x : Side) :
    s.Within (s.closeGood x) x [.side .sensorLoss x, .side .sensorFrame x] :=
  ((State.Within.onSide s x _ _).trans (State.endSensorFaults_within _ x)).thenOnSide _

/-- The port at a good frame end (R7, R10, R11). -/
def Port.closedGood (p : Port) : Port :=
  { p with
    phase := .closed, goodCount := satSucc p.goodCount 255, badCount := 0, lossCond := false,
    frameCond := if satSucc p.goodCount 255 = 3 then false else p.frameCond }

theorem State.closeGood_side (s : State) (x : Side) :
    (s.closeGood x).side x = { (s.side x).readySlot with port := (s.side x).port.closedGood } := by
  rw [State.closeGood, State.onSide_side, State.endSensorFaults_side, State.onSide_side]
  exact SideState.readySlot_port (s.side x) (s.side x).port.closedGood

@[simp] theorem State.closeGood_tableStore (s : State) (x : Side) : (s.closeGood x).tableStore = s.tableStore := by
  simp [State.closeGood]

theorem State.closeGood_clear (s : State) (x : Side) :
    ((s.side x).port.lossCond = true → ((s.closeGood x).faults.get (.side .sensorLoss x)).state = .clear) ∧
    (satSucc (s.side x).port.goodCount 255 = 3 → (s.side x).port.frameCond = true →
      ((s.closeGood x).faults.get (.side .sensorFrame x)).state = .clear) := by
  have h := State.endSensorFaults_clear (s.onSide x (fun d =>
    { d with port := { d.port with phase := .closed, goodCount := satSucc d.port.goodCount 255, badCount := 0 } })) x
  simp only [State.onSide_side] at h
  exact h

/-! ## Metering (R34, R35) -/

theorem meteredZones_eq (p : Profile) (v : Window) (zones : List ZoneAcc) :
    meteredZones p v zones = (zones.zipIdx.filter (fun a =>
      decide (80 * (a.2 % 12) < v.x + v.w ∧ v.x < 80 * (a.2 % 12) + 80 ∧
        80 * (a.2 / 12) < v.y + v.h ∧ v.y < 80 * (a.2 / 12) + 80) &&
      !(decide (p.zoneThreshold ≤ a.1.bright ∧ zones.countP (fun a => decide (p.zoneThreshold ≤ a.bright)) ≤ p.maxLit) &&
        p.glareEnable))).map Prod.fst := by
  unfold meteredZones
  refine congrArg (List.map Prod.fst) (List.filter_congr fun a _ => ?_)
  have hsusp : (!suspendedOf p zones) = decide (zones.countP (fun a => decide (p.zoneThreshold ≤ a.bright)) ≤ p.maxLit) := by
    rw [suspendedOf, ← decide_not]
    exact decide_eq_decide.mpr Nat.not_lt
  simp only [zoneMeets, takenAsLit, zoneLit, hsusp, Bool.decide_and, Bool.and_assoc]
  congr 6
  rw [Bool.and_comm p.glareEnable]

/-- The limits of R28 with the factors as the statements write them. -/
theorem limitsOf_eq (p : Profile) (n : Sensor) :
    limitsOf p n =
      { imaxEff := min p.imax n.imaxHw, aMax := 32 * n.gainMax, dMax := p.dMax,
        eMax := logLevel (min p.imax n.imaxHw) + 32 * n.gainMax + p.dMax } := by
  simp only [limitsOf, Nat.mul_comm]

/-! ## The ladder (R44, R45) -/

theorem ladderToward_iff (l : Ladder) (b k : Bank) (scene : Int) : ladderToward l b scene = some k ↔ l.Leads b k scene := by
  match b with
  | 0 =>
    by_cases h : scene < l.dayToDusk <;> simp [ladderToward, Ladder.Leads, h, eq_comm]
  | 1 =>
    by_cases h : scene < l.duskToNight <;> by_cases g : l.duskToDay < scene <;>
      simp [ladderToward, Ladder.Leads, h, g, eq_comm]
  | 2 =>
    by_cases h : l.nightToDusk < scene <;> simp [ladderToward, Ladder.Leads, h, eq_comm]
  | 3 => simp [ladderToward, Ladder.Leads]

theorem Exposure.evaluateLadder_takes (e : Exposure) (l : Ladder) (b : Bank) (scene : Int) :
    e.TakesLadder (e.evaluateLadder l b scene) l b scene := by
  have auto : e.mode = .auto → b ≠ 3 → e.evaluateLadder l b scene = e.dwellStep l.dwell (ladderToward l b scene) := fun h hb => by
    simp only [Exposure.evaluateLadder, h, if_neg hb]
  have leads : ∀ k, l.Leads b k scene → b ≠ 3 := by
    rintro k (⟨rfl, -⟩ | ⟨rfl, -⟩ | ⟨rfl, -⟩ | ⟨rfl, -⟩) <;> decide
  refine ⟨fun h => ?_, fun h hb hn => ?_, fun k n h hk hn => ?_⟩
  · cases hm : e.mode with
    | auto => simp only [Exposure.evaluateLadder, hm, if_pos (h.resolve_left (fun g => g hm))]
    | forced c => simp only [Exposure.evaluateLadder, hm]
  · have hnone : ladderToward l b scene = none := by
      rw [Option.eq_none_iff_forall_ne_some]
      exact fun k hk => hn k ((ladderToward_iff l b k scene).mp hk)
    rw [auto h hb, hnone]
    rfl
  · rw [auto h (leads k hk), (ladderToward_iff l b k scene).mpr hk, hn]
    rfl

/-! ## The request for an exposure group (R16, R18, R39) -/

/-- What the request answers and makes of the bus master, by the room in its buffer. -/
theorem Bus.requestGroup_eq (b : Bus) (regI valI regA valA : Word) (left queued : List WriteEntry)
    (hl : left = b.buffer.filter (fun w => !w.unsentExposure))
    (hq : queued = left ++
      [{ register := regI, value := valI, origin := .exposure, group := b.groupCounter, sent := false },
       { register := regA, value := valA, origin := .exposure, group := b.groupCounter, sent := false }]) :
    b.requestGroup regI valI regA valA =
      if 14 < left.length then (.dropped, { b with buffer := left })
      else
        (.queued b.groupCounter ((b.buffer.find? WriteEntry.unsentExposure).map WriteEntry.group),
          { b with buffer := queued, groupCounter := b.groupCounter + 1 }) := by
  subst hl hq
  rfl

/-- The request for a record's group (R16, R39). -/
def State.groupAsked (s : State) (x : Side) (r : ExpRecord) : GroupReport × Bus :=
  (s.side x).bus.requestGroup (s.sensorOf x).integRegister (wordOf r.integ) (s.sensorOf x).gainRegister (wordOf (r.analog / 32))

/-- The side takes the bus master's buffer with a queued group, and the outstanding list the group, in place of the one that it supersedes
(R16, R39). -/
def SideState.askFor (d : SideState) (b : Bus) (g : BitVec 8) (superseded : Option (BitVec 8)) (r : ExpRecord) : SideState :=
  { d with
    bus := b,
    exposure := { d.exposure with
      outstanding :=
        d.exposure.outstanding.filter (fun o => !decide (some o.group = superseded)) ++ [{ group := g, record := r }] } }

theorem State.onSide_onSide (s : State) (x : Side) (f g : SideState → SideState) :
    (s.onSide x f).onSide x g = s.onSide x (fun d => g (f d)) := by
  cases x <;> rfl

theorem State.sendExposure_dropped {r : ExpRecord} {b : Bus} (h : s.groupAsked x r = (.dropped, b)) :
    s.sendExposure x r = s.onSide x (fun d => { d with bus := b }) := by
  unfold State.groupAsked at h
  simp only [State.sendExposure, h]

theorem State.sendExposure_queued {r : ExpRecord} {b : Bus} {g : BitVec 8} {sup : Option (BitVec 8)}
    (h : s.groupAsked x r = (.queued g sup, b)) :
    s.sendExposure x r = (s.onSide x (fun d => d.askFor b g sup r)).startAttempt x := by
  unfold State.groupAsked at h
  simp only [State.sendExposure, h, State.onSide_onSide]
  rfl

/-- The exposure unit and the bus master after a record is sent, in the words of the statements. -/
theorem State.sendExposure_requests (s : State) (x : Side) (r : ExpRecord) :
    (s.side x).exposure.Requests ((s.sendExposure x r).side x).exposure (s.side x).bus ((s.sendExposure x r).side x).bus
      (s.sensorOf x) r s.tick := by
  intro left queued hl hq
  have hask : s.groupAsked x r = _ := Bus.requestGroup_eq (s.side x).bus (s.sensorOf x).integRegister (wordOf r.integ)
    (s.sensorOf x).gainRegister (wordOf (r.analog / 32)) left queued hl hq
  refine ⟨fun hfull => ?_, fun hroom => ?_⟩
  · rw [if_pos hfull] at hask
    rw [State.sendExposure_dropped hask]
    simp
  · rw [if_neg (by omega)] at hask
    rw [State.sendExposure_queued hask]
    obtain ⟨u, hu⟩ : ∃ u, u = s.onSide x (fun d => d.askFor
        { (s.side x).bus with buffer := queued, groupCounter := (s.side x).bus.groupCounter + 1 } (s.side x).bus.groupCounter
        (((s.side x).bus.buffer.find? WriteEntry.unsentExposure).map WriteEntry.group) r) := ⟨_, rfl⟩
    rw [← hu]
    have hside : u.side x = (s.side x).askFor
        { (s.side x).bus with buffer := queued, groupCounter := (s.side x).bus.groupCounter + 1 } (s.side x).bus.groupCounter
        (((s.side x).bus.buffer.find? WriteEntry.unsentExposure).map WriteEntry.group) r := by
      rw [hu, State.onSide_side]
    have htick : u.tick = s.tick := by rw [hu]; rfl
    obtain ⟨hbuf, -, -, hgc⟩ := State.startAttempt_keeps u x
    rw [hgc, hbuf, (State.startAttempt_frame u x).exposure]
    refine ⟨by rw [hside]; rfl, by rw [hside]; rfl, by rw [hside]; rfl, fun hs => ?_, fun hi => ⟨fun hn => ?_, fun n more hn => ?_⟩⟩
    · rw [State.startAttempt_sending u x (by rw [hside]; exact hs), hside]
      rfl
    · rw [hq] at hn
      simp at hn
    · obtain ⟨device, hb⟩ := State.startAttempt_bus u x n more (by rw [hside]; exact hi) (by rw [hside]; exact hn)
      rw [hb, ← htick]
      exact ⟨rfl, rfl, rfl, rfl⟩

/-- A request touches of its side the bus master, the exposure unit and the tables, and nothing else but what the attempt it starts
reads. -/
theorem State.sendExposure_frame (s : State) (x : Side) (r : ExpRecord) :
    let t := s.sendExposure x r
    t.side x.other = s.side x.other ∧ t.frameStore = s.frameStore ∧ t.artic = s.artic ∧ t.locks = s.locks ∧
      (∀ i, i ≠ .part .errorCorrected → i ≠ .side .tablePoisoned x → t.faults.get i = s.faults.get i) ∧
      { t.side x with bus := (s.side x).bus, exposure := (s.side x).exposure, tables := (s.side x).tables } = s.side x := by
  obtain ⟨b, hg | ⟨g, sup, hg⟩⟩ : ∃ b, s.groupAsked x r = (.dropped, b) ∨ ∃ g sup, s.groupAsked x r = (.queued g sup, b) := by
    cases hg : s.groupAsked x r with
    | mk a b => cases a with
      | dropped => exact ⟨b, .inl rfl⟩
      | queued g sup => exact ⟨b, .inr ⟨g, sup, rfl⟩⟩
  · rw [State.sendExposure_dropped hg]
    simp
  · rw [State.sendExposure_queued hg]
    obtain ⟨u, hu⟩ : ∃ u, u = s.onSide x (fun d => d.askFor b g sup r) := ⟨_, rfl⟩
    rw [← hu]
    have hf := State.startAttempt_frame u x
    have hside := hf.side
    have hus : u.side x = (s.side x).askFor b g sup r := by rw [hu, State.onSide_side]
    refine ⟨hf.other.trans (by rw [hu]; simp), hf.frameStore.trans (by rw [hu]; rfl), hf.artic.trans (by rw [hu]; rfl),
      hf.locks.trans (by rw [hu]; rfl), fun i h1 h2 => (hf.faults h1 h2).trans (by rw [hu]; rfl), ?_⟩
    rw [hus] at hside
    exact congrArg (fun d : SideState => { d with bus := (s.side x).bus, exposure := (s.side x).exposure }) hside

end Sys2Proof.Machine
end

section
/-! The good frame end as a whole (R7, R34 to R39, R44, R60, R111). -/

namespace Sys2Proof.Machine

variable {s t u : State} {x : Side}

/-! ## Metering and the request -/

/-- The newest frame record takes the mean and the scene level, and the ladder is evaluated (R35, R44). -/
def SideState.takeMean (d : SideState) (l : Ladder) (b : Bank) (m : Nat) (scene : Int) : SideState :=
  let d := d.onNewest (fun r => { r with metered := some (m, scene) })
  { d with exposure := d.exposure.evaluateLadder l b scene }

theorem SideState.takeMean_exposure (d : SideState) (l : Ladder) (b : Bank) (m : Nat) (scene : Int) :
    (d.takeMean l b m scene).exposure = d.exposure.evaluateLadder l b scene := by
  have h := congrArg SideState.exposure (SideState.onNewest_frame d (fun r => { r with metered := some (m, scene) }))
  exact congrArg (fun e : Exposure => e.evaluateLadder l b scene) h

theorem SideState.takeMean_frame (d : SideState) (l : Ladder) (b : Bank) (m : Nat) (scene : Int) :
    { d.takeMean l b m scene with history := d.history, exposure := d.exposure } = d := by
  have h := SideState.onNewest_frame d (fun r => { r with metered := some (m, scene) })
  exact congrArg (fun e : SideState => { e with exposure := d.exposure }) h

theorem SideState.takeMean_history (d : SideState) (l : Ladder) (b : Bank) (m : Nat) (scene : Int) :
    (d.takeMean l b m scene).history = d.history.modifyHead (fun r => { r with metered := some (m, scene) }) :=
  SideState.onNewest_history d _

/-- The state with the mean taken, before an exposure is asked for. -/
def State.metered (s : State) (x : Side) (inp : FrameInputs) (m : Nat) : State :=
  s.onSide x (fun d => d.takeMean (readLadder (s.copies x).ladder) inp.bank m ((logLevel m : Int) - inp.exposure.total))

theorem State.meterFrame_none {inp : FrameInputs} {zones : List ZoneAcc}
    (h : meteredMean (s.profileOf x inp.bank) inp.main zones = none) :
    s.meterFrame x inp zones = s.onSide x (fun d => d.onNewest (fun r => { r with metered := none })) := by
  simp only [State.meterFrame, h]

theorem State.meterFrame_some {inp : FrameInputs} {zones : List ZoneAcc} {m : Nat}
    (h : meteredMean (s.profileOf x inp.bank) inp.main zones = some m) :
    s.meterFrame x inp zones =
      if requestedExposure (s.profileOf x inp.bank) (limitsOf (s.profileOf x inp.bank) (s.sensorOf x))
          ((s.metered x inp m).side x).exposure.trim m inp.exposure.total =
        expectedE ((s.metered x inp m).side x).exposure.pendingQueue inp.exposure.total then s.metered x inp m
      else (s.metered x inp m).sendExposure x (splitExposure (limitsOf (s.profileOf x inp.bank) (s.sensorOf x))
        (requestedExposure (s.profileOf x inp.bank) (limitsOf (s.profileOf x inp.bank) (s.sensorOf x))
          ((s.metered x inp m).side x).exposure.trim m inp.exposure.total)) := by
  simp only [State.meterFrame, h]
  rfl

/-- What metering leaves: of its side the history, the exposure unit, the bus master and the tables may change (R34 to R39). -/
theorem State.meterFrame_frame (s : State) (x : Side) (inp : FrameInputs) (zones : List ZoneAcc) :
    let t := s.meterFrame x inp zones
    t.side x.other = s.side x.other ∧ t.frameStore = s.frameStore ∧ t.artic = s.artic ∧ t.locks = s.locks ∧
      (∀ i, i ≠ .part .errorCorrected → i ≠ .side .tablePoisoned x → t.faults.get i = s.faults.get i) ∧
      { t.side x with history := (s.side x).history, bus := (s.side x).bus, exposure := (s.side x).exposure,
                      tables := (s.side x).tables } = s.side x ∧
      ∃ v, (t.side x).history = (s.side x).history.modifyHead (fun r => { r with metered := v }) := by
  have meter : ∀ m, { (s.metered x inp m).side x with history := (s.side x).history, exposure := (s.side x).exposure } = s.side x :=
    fun m => by rw [State.metered, State.onSide_side]; exact SideState.takeMean_frame _ _ _ _ _
  have hist : ∀ m, ((s.metered x inp m).side x).history = (s.side x).history.modifyHead
      (fun r => { r with metered := some (m, (logLevel m : Int) - inp.exposure.total) }) :=
    fun m => by rw [State.metered, State.onSide_side, SideState.takeMean_history]
  cases h : meteredMean (s.profileOf x inp.bank) inp.main zones with
  | none =>
    rw [State.meterFrame_none h]
    refine ⟨by simp, rfl, rfl, rfl, fun _ _ _ => rfl, ?_, none, ?_⟩
    · rw [State.onSide_side]
      exact congrArg (fun d : SideState => { d with
        bus := (s.side x).bus, exposure := (s.side x).exposure, tables := (s.side x).tables }) (SideState.onNewest_frame _ _)
    · rw [State.onSide_side]; exact SideState.onNewest_history _ _
  | some m =>
    rw [State.meterFrame_some h]
    split
    · exact ⟨by simp [State.metered], rfl, rfl, rfl, fun _ _ _ => rfl,
        congrArg (fun d : SideState => { d with bus := (s.side x).bus, tables := (s.side x).tables }) (meter m), _, hist m⟩
    · obtain ⟨hother, hstore, hartic, hlocks, hfaults, hside⟩ := State.sendExposure_frame (s.metered x inp m) x
        (splitExposure (limitsOf (s.profileOf x inp.bank) (s.sensorOf x))
          (requestedExposure (s.profileOf x inp.bank) (limitsOf (s.profileOf x inp.bank) (s.sensorOf x))
            ((s.metered x inp m).side x).exposure.trim m inp.exposure.total))
      have hh := congrArg SideState.history hside
      have hs := congrArg (fun d : SideState => { d with
        history := (s.side x).history, bus := (s.side x).bus, exposure := (s.side x).exposure,
        tables := (s.side x).tables }) hside
      have hm := congrArg (fun d : SideState => { d with bus := (s.side x).bus, tables := (s.side x).tables }) (meter m)
      exact ⟨hother.trans (by simp [State.metered]), hstore, hartic, hlocks, hfaults, hs.trans hm, _, hh.trans (hist m)⟩

/-! ## The frame handed over (R60, R80 to R83) -/

theorem SideState.handFrame_frame (d : SideState) (p : Profile) (f : FrameNo) :
    { d.handFrame p f with history := d.history, dev := d.dev, glare := d.glare } = d := by
  have h := SideState.updateGlare_frame d p f d.dev.zones
  exact congrArg (fun e : SideState => { e with dev := d.dev }) h

theorem SideState.handFrame_history (d : SideState) (p : Profile) (f : FrameNo) :
    (d.handFrame p f).history = d.history.modifyHead
      (fun r => { r with glare := some (litCountOf p d.dev.zones, suspendedOf p d.dev.zones) }) :=
  SideState.onNewest_history d _

/-- The state that is metered: the frame closed and handed over. -/
def State.frameHanded (s : State) (x : Side) (inp : FrameInputs) (f : FrameNo) : State :=
  (s.closeGood x).onSide x (fun d => d.handFrame ((s.closeGood x).profileOf x inp.bank) f)

theorem State.closeGood_dev (s : State) (x : Side) : ((s.closeGood x).side x).dev = (s.side x).dev := by
  have h := congrArg SideState.dev (SideState.readySlot_frame (s.side x))
  rw [State.closeGood_side]
  exact h

theorem State.closeGood_copies (s : State) (x : Side) : (s.closeGood x).copies x = s.copies x := by
  rw [State.copies, State.closeGood_dev, State.copies]

theorem State.frameEnd_good {f : FrameNo} {inp : FrameInputs} (hp : (s.side x).port.phase = .lines)
    (hl : (s.side x).port.lineCount = 2560) (hf : (s.side x).dev.frame = some f) (hi : (s.side x).dev.inputs = some inp) :
    s.frameEnd x = (s.frameHanded x inp f).meterFrame x inp (s.side x).dev.zones := by
  simp only [State.frameEnd, hp, hl, if_pos]
  rw [State.goodFrameEnd_eq, State.closeGood_dev, hf, hi]
  rfl

/-- The side that is metered: port, slots and glare unit have taken the frame, and the developer is IDLE. -/
theorem State.frameHanded_side (s : State) (x : Side) (inp : FrameInputs) (f : FrameNo) :
    let d := (s.frameHanded x inp f).side x
    d.port = (s.side x).port.closedGood ∧ d.store = (s.side x).readySlot.store ∧ d.dev = (s.side x).dev.idle ∧
      d.exposure = (s.side x).exposure ∧ d.bus = (s.side x).bus ∧
      d.history = (s.side x).readySlot.history.modifyHead (fun r =>
        { r with glare := some (litCountOf (s.profileOf x inp.bank) (s.side x).dev.zones,
          suspendedOf (s.profileOf x inp.bank) (s.side x).dev.zones) }) := by
  intro d
  have hprofile : (s.closeGood x).profileOf x inp.bank = s.profileOf x inp.bank := by
    rw [State.profileOf, State.closeGood_copies, State.profileOf]
  have hd : d = ((s.closeGood x).side x).handFrame (s.profileOf x inp.bank) f := by
    rw [← hprofile]; exact State.onSide_side _ _ _
  have hframe := SideState.handFrame_frame ((s.closeGood x).side x) (s.profileOf x inp.bank) f
  have hready := SideState.readySlot_frame (s.side x)
  have hhist := SideState.handFrame_history ((s.closeGood x).side x) (s.profileOf x inp.bank) f
  rw [← hd] at hframe hhist
  have hclose := State.closeGood_side s x
  have hdev := State.closeGood_dev s x
  have hport := congrArg SideState.port hframe
  have hstore := congrArg SideState.store hframe
  have hexp := congrArg SideState.exposure hframe
  have hbus := congrArg SideState.bus hframe
  have hrexp := congrArg SideState.exposure hready
  have hrbus := congrArg SideState.bus hready
  rw [hclose] at hport hstore hexp hbus
  rw [hdev, hclose] at hhist
  refine ⟨hport, hstore, ?_, hexp.trans hrexp, hbus.trans hrbus, hhist⟩
  rw [hd, ← hdev]
  rfl

theorem State.frameHanded_copies (s : State) (x : Side) (inp : FrameInputs) (f : FrameNo) :
    (s.frameHanded x inp f).copies x = s.copies x := by
  obtain ⟨-, -, hdev, -⟩ := State.frameHanded_side s x inp f
  rw [State.copies, hdev, State.copies]
  rfl

theorem List.head?_map_modifyHead {α β : Type} (l : List α) (g : α → α) (f : α → β) :
    (l.modifyHead g).head?.map f = l.head?.map (fun a => f (g a)) := by
  cases l <;> rfl

/-- The limits, the profile and the zones taken, as the statements write them (R28, R34). -/
theorem State.frameHanded_profile (s : State) (x : Side) (inp : FrameInputs) (f : FrameNo) :
    (s.frameHanded x inp f).profileOf x inp.bank = s.profileOf x inp.bank ∧
      (s.frameHanded x inp f).sensorOf x = s.sensorOf x := by
  simp only [State.profileOf, State.sensorOf, State.frameHanded_copies, and_self]

theorem State.frameHanded_tick (s : State) (x : Side) (inp : FrameInputs) (f : FrameNo) :
    (s.frameHanded x inp f).tick = s.tick := (State.closeGood_within s x).tick

/-- Metering after the frame is handed over, in the words of the statement (R34 to R39, R44). -/
theorem State.frameHanded_metering (s : State) (x : Side) (inp : FrameInputs) (f : FrameNo) {l : Limits} {lit : Nat}
    {ms : List ZoneAcc}
    (hl : l = { imaxEff := min (s.profileOf x inp.bank).imax (s.sensorOf x).imaxHw, aMax := 32 * (s.sensorOf x).gainMax,
                dMax := (s.profileOf x inp.bank).dMax,
                eMax := logLevel (min (s.profileOf x inp.bank).imax (s.sensorOf x).imaxHw) + 32 * (s.sensorOf x).gainMax +
                  (s.profileOf x inp.bank).dMax })
    (hlit : lit = (s.side x).dev.zones.countP (fun a => decide ((s.profileOf x inp.bank).zoneThreshold ≤ a.bright)))
    (hms : ms = ((s.side x).dev.zones.zipIdx.filter (fun a =>
      decide (80 * (a.2 % 12) < inp.main.x + inp.main.w ∧ inp.main.x < 80 * (a.2 % 12) + 80 ∧
        80 * (a.2 / 12) < inp.main.y + inp.main.h ∧ inp.main.y < 80 * (a.2 / 12) + 80) &&
      !(decide ((s.profileOf x inp.bank).zoneThreshold ≤ a.1.bright ∧ lit ≤ (s.profileOf x inp.bank).maxLit) &&
        (s.profileOf x inp.bank).glareEnable))).map Prod.fst) :
    let t := (s.frameHanded x inp f).meterFrame x inp (s.side x).dev.zones
    (t.side x).history.head?.map FrameRecord.glare =
      (s.side x).history.head?.map (fun _ => some (lit, decide ((s.profileOf x inp.bank).maxLit < lit))) ∧
    (ms = [] → (t.side x).history.head?.map FrameRecord.metered = (s.side x).history.head?.map (fun _ => none) ∧
      (t.side x).exposure = (s.side x).exposure ∧ (t.side x).bus = (s.side x).bus) ∧
    ∀ (m exp req : Nat) (scene : Int), ms ≠ [] → m = (ms.map ZoneAcc.green).sum / (6400 * ms.length) →
      scene = (logLevel m : Int) - inp.exposure.total →
      exp = (match (s.side x).exposure.pendingQueue.getLast? with
        | some q => q.record.total
        | none => inp.exposure.total) →
      req = requestedExposure (s.profileOf x inp.bank) l (s.side x).exposure.trim m inp.exposure.total →
      (t.side x).history.head?.map FrameRecord.metered = (s.side x).history.head?.map (fun _ => some (m, scene)) ∧
      ∃ u, (s.side x).exposure.TakesLadder u (readLadder (s.copies x).ladder) inp.bank scene ∧
        (req = exp → (t.side x).exposure = u ∧ (t.side x).bus = (s.side x).bus) ∧
        (req ≠ exp → u.Requests (t.side x).exposure (s.side x).bus (t.side x).bus (s.sensorOf x) (splitExposure l req) s.tick) := by
  intro t
  obtain ⟨-, -, -, hexp, hbus, hhist⟩ := State.frameHanded_side s x inp f
  obtain ⟨hprof, hsen⟩ := State.frameHanded_profile s x inp f
  obtain ⟨-, -, -, -, -, -, v, hmhist⟩ := State.meterFrame_frame (s.frameHanded x inp f) x inp (s.side x).dev.zones
  have hzones : meteredZones (s.profileOf x inp.bank) inp.main (s.side x).dev.zones = ms := by
    rw [hms, hlit]; exact meteredZones_eq _ _ _
  have hlim : limitsOf (s.profileOf x inp.bank) (s.sensorOf x) = l := by rw [hl]; exact limitsOf_eq _ _
  have hmean : meteredMean ((s.frameHanded x inp f).profileOf x inp.bank) inp.main (s.side x).dev.zones =
      if ms = [] then none else some ((ms.map ZoneAcc.green).sum / (6400 * ms.length)) := by
    rw [hprof]; simp only [meteredMean, hzones]
  have hmetered : ∀ w : Option (Nat × Int), ((s.frameHanded x inp f).side x).history.modifyHead (fun r => { r with metered := w }) =
      (t.side x).history → (t.side x).history.head?.map FrameRecord.metered = (s.side x).history.head?.map (fun _ => w) := by
    intro w hw
    rw [← hw, List.head?_map_modifyHead, hhist, List.head?_map_modifyHead]
    exact SideState.readySlot_head_map _ _ fun _ _ => rfl
  refine ⟨?_, fun hnil => ?_, fun m exp req scene hne hm hscene hexpected hreq => ?_⟩
  · rw [hmhist, List.head?_map_modifyHead, hhist, List.head?_map_modifyHead, hlit]
    exact SideState.readySlot_head_map _ _ fun _ _ => rfl
  · have ht : t = _ := State.meterFrame_none (by rw [hmean, if_pos hnil])
    refine ⟨hmetered none ?_, ?_, ?_⟩
    · rw [ht, State.onSide_side, SideState.onNewest_history]
    · rw [ht, State.onSide_side, ← hexp]
      have h := congrArg SideState.exposure
        (SideState.onNewest_frame ((s.frameHanded x inp f).side x) fun r => { r with metered := none })
      exact h
    · rw [ht, State.onSide_side, ← hbus]
      have h := congrArg SideState.bus
        (SideState.onNewest_frame ((s.frameHanded x inp f).side x) fun r => { r with metered := none })
      exact h
  · have hmean' : meteredMean ((s.frameHanded x inp f).profileOf x inp.bank) inp.main (s.side x).dev.zones = some m := by
      rw [hmean, if_neg hne, hm]
    have ht : t = _ := State.meterFrame_some hmean'
    obtain ⟨w, hw⟩ : ∃ w, w = (s.frameHanded x inp f).metered x inp m := ⟨_, rfl⟩
    have hws : w.side x = ((s.frameHanded x inp f).side x).takeMean (readLadder (s.copies x).ladder) inp.bank m scene := by
      rw [hw, State.metered, State.onSide_side, State.frameHanded_copies, ← hscene]
    have hwexp : (w.side x).exposure =
        (s.side x).exposure.evaluateLadder (readLadder (s.copies x).ladder) inp.bank scene := by
      rw [hws, SideState.takeMean_exposure, hexp]
    have hwbus : (w.side x).bus = (s.side x).bus := by
      rw [hws, ← hbus]
      have h := congrArg SideState.bus (SideState.takeMean_frame ((s.frameHanded x inp f).side x)
        (readLadder (s.copies x).ladder) inp.bank m scene)
      exact h
    have hladder := Exposure.evaluateLadder_frame (s.side x).exposure (readLadder (s.copies x).ladder) inp.bank scene
    have htrim : (w.side x).exposure.trim = (s.side x).exposure.trim := by
      rw [hwexp]; have h := congrArg Exposure.trim hladder; exact h
    have hqueue : (w.side x).exposure.pendingQueue = (s.side x).exposure.pendingQueue := by
      rw [hwexp]; have h := congrArg Exposure.pendingQueue hladder; exact h
    have hwsen : w.sensorOf x = s.sensorOf x := by
      have hdev := congrArg SideState.dev (SideState.takeMean_frame ((s.frameHanded x inp f).side x)
        (readLadder (s.copies x).ladder) inp.bank m scene)
      rw [← hws] at hdev
      rw [← hsen, State.sensorOf, State.copies, show (w.side x).dev = _ from hdev]
      rfl
    have hwtick : w.tick = s.tick := by rw [hw]; exact State.frameHanded_tick s x inp f
    have hexpected' : expectedE (s.side x).exposure.pendingQueue inp.exposure.total = exp := hexpected.symm
    rw [← hw, hprof, hsen, hlim, htrim, hqueue, ← hreq, hexpected'] at ht
    refine ⟨hmetered (some (m, scene)) ?_, (w.side x).exposure, ?_, fun h => ?_, fun h => ?_⟩
    · rw [← SideState.takeMean_history _ (readLadder (s.copies x).ladder) inp.bank m scene, ← hws, ht]
      split
      · rfl
      · obtain ⟨-, -, -, -, -, hside⟩ := State.sendExposure_frame w x (splitExposure l req)
        exact (congrArg SideState.history hside).symm
    · rw [hwexp]; exact Exposure.evaluateLadder_takes _ _ _ _
    · rw [ht, if_pos h]
      exact ⟨rfl, hwbus⟩
    · rw [ht, if_neg h]
      have hreqs := State.sendExposure_requests w x (splitExposure l req)
      rwa [hwbus, hwsen, hwtick] at hreqs

/-- Settles O18: the frame is closed and handed over (`State.frameHanded_side`), and metered, with the request that
`State.sendExposure_requests` describes. -/
theorem goodFrameEndMakesTheFrameReady : Obligations.GoodFrameEndMakesTheFrameReady := by
  intro x s hr hp hl hslots hf hi
  obtain ⟨f, hf⟩ := Option.isSome_iff_exists.mp hf
  obtain ⟨inp, hi⟩ := Option.isSome_iff_exists.mp hi
  refine ⟨(s.frameHanded x inp f).meterFrame x inp (s.side x).dev.zones,
    by rw [exec_frameEndMarker, State.take_eq _ _ hr, State.frameEnd_good hp hl hf hi], ?_⟩
  obtain ⟨hport, hstore, hdev, hexp, hbus, hhist⟩ := State.frameHanded_side s x inp f
  obtain ⟨hother, hfs, hartic, hlocks, hfaults, hside, v, hmhist⟩ :=
    State.meterFrame_frame (s.frameHanded x inp f) x inp (s.side x).dev.zones
  have hwithin := (State.closeGood_within s x).thenOnSide (fun d => d.handFrame ((s.closeGood x).profileOf x inp.bank) f)
  obtain ⟨hloss, hframe⟩ := State.closeGood_clear s x
  have htport := (congrArg SideState.port hside).trans hport
  have htstore := (congrArg SideState.store hside).trans hstore
  have htdev := (congrArg SideState.dev hside).trans hdev
  simp only at htport htstore htdev
  rw [htport, htstore, htdev, hfaults _ (by simp) (by simp), hfaults _ (by simp) (by simp)]
  refine ⟨rfl, rfl, rfl, rfl, hloss, fun h => if_pos h, hframe, fun n hn => ?_, fun n m c hn hm hc => ?_, rfl,
    hother.trans hwithin.other, hfs.trans hwithin.frameStore, hartic.trans hwithin.artic, hlocks.trans hwithin.locks, ?_⟩
  · obtain ⟨h1, h2, h3, -⟩ := SideState.readySlot_slots hslots hn
    exact ⟨h1, h2, h3⟩
  · obtain ⟨-, -, -, h4⟩ := SideState.readySlot_slots hslots hn
    rw [hmhist, hhist, h4 m c hm hc]
    cases (s.side x).history with
    | nil => rfl
    | cons r rs =>
      simp only [writeOutcome, List.map_cons, List.modifyHead_cons, List.map_map]
      congr 1
      · split <;> rfl
      · exact List.map_congr_left fun r _ => by simp only [Function.comp]; split <;> rfl
  · rintro inp' p l lit ms e sen hi' rfl rfl rfl hlim hlit hms
    obtain rfl : inp = inp' := Option.some.inj (hi.symm.trans hi')
    exact State.frameHanded_metering s x inp f hlim hlit hms

end Sys2Proof.Machine
end

section
/-! The SEC-DED code of the table store: a stored word delivers its data (R155, R156). -/

namespace Sys2Proof.Machine

theorem getLsbD_bitsOf (n : Nat) (f : Nat → Bool) (i : Nat) : (bitsOf n f).getLsbD i = (decide (i < n) && f i) := by
  induction n with
  | zero => simp [bitsOf]
  | succ n ih =>
    rw [bitsOf, BitVec.getLsbD_cons, ih]
    rcases Nat.lt_trichotomy i n with h | h | h
    · simp [h.ne, h, Nat.lt_succ_of_lt h]
    · simp [h]
    · simp [show i ≠ n by omega, show ¬ i < n by omega, show ¬ i < n + 1 by omega]

theorem xorBelow_congr {n : Nat} {f g : Nat → Bool} (h : ∀ p, p < n → f p = g p) : xorBelow n f = xorBelow n g := by
  induction n with
  | zero => rfl
  | succ n ih => rw [xorBelow, xorBelow, ih fun p hp => h p (Nat.lt_succ_of_lt hp), h n (Nat.lt_succ_self n)]

theorem xorBelow_xor (n : Nat) (f g : Nat → Bool) : xorBelow n (fun p => f p ^^ g p) = (xorBelow n f ^^ xorBelow n g) := by
  induction n with
  | zero => rfl
  | succ n ih => simp [xorBelow, ih, Bool.xor_left_comm]

/-- The exclusive-or over all positions of a word whose position 0 makes it 0. -/
theorem xorBelow_overall (n : Nat) (f : Nat → Bool) (h0 : f 0 = false) :
    xorBelow (n + 1) (fun p => if p = 0 then xorBelow (n + 1) f else f p) = false := by
  have single : ∀ b : Bool, xorBelow (n + 1) (fun p => if p = 0 then b else false) = b := fun b => by
    induction n with
    | zero => simp [xorBelow]
    | succ n ih => rw [xorBelow, ih]; simp
  have split : ∀ p, p < n + 1 → (if p = 0 then xorBelow (n + 1) f else f p) =
      ((if p = 0 then xorBelow (n + 1) f else false) ^^ f p) := fun p _ => by
    by_cases hp : p = 0
    · simp [hp, h0]
    · simp [hp]
  rw [xorBelow_congr split, xorBelow_xor, single, Bool.xor_self]

/-- Bit p of a stored word: the body's, with the overall check at position 0 (R155). -/
theorem getLsbD_encodeWord {k : Nat} (n : Nat) (d : BitVec k) (p : Nat) :
    (encodeWord n d).getLsbD p = (decide (p < n) && if p = 0 then xorBelow n (bodyBit n d) else bodyBit n d p) := by
  rw [encodeWord, getLsbD_bitsOf]
  by_cases hp : p < n
  · rw [xorBelow_congr (g := bodyBit n d) fun q hq => by rw [getLsbD_bitsOf]; simp [hq], getLsbD_bitsOf]
    simp [hp]
  · simp [hp]

/-- Of the check positions of a table word only 2^i has bit i set, whatever the check bits are. -/
theorem parityAt_checks (c : Nat → Bool) (i : Nat) (hi : i < 5) :
    parityAt 22 i (fun p => decide (p ≠ 0) && isCheckPos p && c (Nat.log2 p)) = c i := by
  have checks : ∀ p, p < 22 → (decide (p ≠ 0) && isCheckPos p) = decide (p ∈ [1, 2, 4, 8, 16]) := by decide
  have bit : ∀ p, p < 22 → (p.testBit i && (decide (p ≠ 0) && isCheckPos p && c (Nat.log2 p))) =
      (decide (p ∈ [1, 2, 4, 8, 16]) && p.testBit i && c (Nat.log2 p)) := fun p hp => by
    rw [checks p hp, ← Bool.and_assoc, Bool.and_comm (p.testBit i)]
  rw [parityAt, xorBelow_congr bit]
  interval_cases i <;> simp [xorBelow, Nat.testBit, Nat.log2]

/-- Every position check of a table word's body is 0 (R155). -/
theorem parityAt_bodyBit (d : BitVec 16) (i : Nat) (hi : i < 5) : parityAt 22 i (bodyBit 22 d) = false := by
  obtain ⟨data, hdata⟩ : ∃ f : Nat → Bool, f = fun q => !isCheckPos q && d.getLsbD (dataIndex q) := ⟨_, rfl⟩
  have body : ∀ p, bodyBit 22 d p = ((decide (p ≠ 0) && isCheckPos p && parityAt 22 (Nat.log2 p) data) ^^ data p) := fun p => by
    subst hdata
    by_cases h0 : p = 0
    · simp [bodyBit, h0, isCheckPos]
    · by_cases hc : isCheckPos p = true <;> simp [bodyBit, h0, hc]
  have split : ∀ p, p < 22 → (p.testBit i && bodyBit 22 d p) =
      ((p.testBit i && (decide (p ≠ 0) && isCheckPos p && parityAt 22 (Nat.log2 p) data)) ^^ (p.testBit i && data p)) :=
    fun p _ => by rw [body, Bool.and_xor_distrib_left]
  rw [parityAt, xorBelow_congr split, xorBelow_xor]
  have checks := parityAt_checks (fun j => parityAt 22 j data) i hi
  rw [parityAt] at checks
  rw [checks]
  exact Bool.xor_self _

theorem syndrome_encodeWord (d : BitVec 16) : syndrome 5 (encodeWord 22 d) = 0 := by
  have bits : ∀ i, i < 6 → (if i < 5 then parityAt 22 i (fun p => (encodeWord 22 d).getLsbD p)
      else xorBelow 22 (fun p => (encodeWord 22 d).getLsbD p)) = false := fun i _ => by
    split
    · next hi =>
      have same : ∀ p, p < 22 → (p.testBit i && (encodeWord 22 d).getLsbD p) = (p.testBit i && bodyBit 22 d p) := fun p hp => by
        rw [getLsbD_encodeWord]
        by_cases h0 : p = 0
        · simp [h0]
        · simp [h0, hp]
      rw [parityAt, xorBelow_congr same]
      exact parityAt_bodyBit d i hi
    · have all : ∀ p, p < 22 → (encodeWord 22 d).getLsbD p =
          if p = 0 then xorBelow 22 (bodyBit 22 d) else bodyBit 22 d p := fun p hp => by
        rw [getLsbD_encodeWord]; simp [hp]
      rw [xorBelow_congr all]
      exact xorBelow_overall 21 (bodyBit 22 d) rfl
  have zero : bitsOf 6 (fun i => if i < 5 then parityAt 22 i (fun p => (encodeWord 22 d).getLsbD p)
      else xorBelow 22 (fun p => (encodeWord 22 d).getLsbD p)) = 0#6 :=
    BitVec.eq_of_getLsbD_eq fun i hi => by rw [getLsbD_bitsOf, bits i hi]; simp
  rw [syndrome, zero]
  rfl

theorem dataOf_encodeWord (d : BitVec 16) : dataOf 16 (encodeWord 22 d) = d := by
  have places : ∀ j, j < 16 → ∃ p, (dataPositions 22)[j]? = some p ∧ p ≠ 0 ∧ p < 22 ∧ isCheckPos p = false ∧ dataIndex p = j := by
    intro j hj
    have h : ∀ j < 16, ((dataPositions 22).getD j 0) ≠ 0 ∧ ((dataPositions 22).getD j 0) < 22 ∧
        isCheckPos ((dataPositions 22).getD j 0) = false ∧ dataIndex ((dataPositions 22).getD j 0) = j ∧
        (dataPositions 22)[j]?.isSome = true := by decide
    obtain ⟨h0, hlt, hc, hi, hsome⟩ := h j hj
    obtain ⟨p, hp⟩ := Option.isSome_iff_exists.mp hsome
    rw [List.getD_eq_getElem?_getD, hp] at h0 hlt hc hi
    exact ⟨p, hp, h0, hlt, hc, hi⟩
  refine BitVec.eq_of_getLsbD_eq fun j hj => ?_
  obtain ⟨p, hp, h0, hlt, hc, hi⟩ := places j hj
  rw [dataOf, getLsbD_bitsOf, List.getD_eq_getElem?_getD, List.getElem?_map, hp]
  simp [getLsbD_encodeWord, hj, hlt, h0, bodyBit, hc, hi]

/-- A table word as it was stored delivers its data (R155, R156). -/
theorem delivered_encodeWord (d : Word) : delivered 5 16 (encodeWord 22 d) = some d := by
  simp [delivered, checkWord, syndrome_encodeWord, dataOf_encodeWord]

end Sys2Proof.Machine
end

section
/-! Runs of reads of the table store while no COUNT trigger is armed: what each read delivers is told from its address and the store
before the run (R156, R157, R172). -/

namespace Sys2Proof.Machine

variable {s t u : State} {x : Side}

/-! ## One word -/

/-- What reads of the addresses `A` leave: no COUNT trigger is armed, the other words are stored and read as before, and TABLE_POISONED of
side `x` is not ended. -/
structure State.ReadRun (s t : State) (x : Side) (A : Nat → Prop) : Prop where
  quiet : t.NoCountTrigger
  share : t.tableStore.leftShare = s.tableStore.leftShare
  stored : ∀ a, ¬ A a → Mem.read tableDefault t.tableStore.mem a = Mem.read tableDefault s.tableStore.mem a
  bits : ∀ a, ¬ A a → t.bitsAt a = s.bitsAt a
  poisoned : (s.faults.get (.side .tablePoisoned x)).state ≠ .clear → (t.faults.get (.side .tablePoisoned x)).state ≠ .clear

theorem State.ReadRun.data {A : Nat → Prop} (h : s.ReadRun t x A) {a : Nat} (ha : ¬ A a) : t.dataAt a = s.dataAt a := by
  rw [State.dataAt, State.dataAt, h.bits a ha]

theorem State.ReadRun.trans {A B C : Nat → Prop} (h : s.ReadRun t x A) (k : t.ReadRun u x B) (hC : ∀ a, A a ∨ B a → C a) :
    s.ReadRun u x C where
  quiet := k.quiet
  share := k.share.trans h.share
  stored a ha := (k.stored a fun hb => ha (hC a (.inr hb))).trans (h.stored a fun hb => ha (hC a (.inl hb)))
  bits a ha := (k.bits a fun hb => ha (hC a (.inr hb))).trans (h.bits a fun hb => ha (hC a (.inl hb)))
  poisoned hp := k.poisoned (h.poisoned hp)

theorem State.ReadRun.mono {A C : Nat → Prop} (h : s.ReadRun t x A) (hC : ∀ a, A a → C a) : s.ReadRun t x C :=
  ⟨h.quiet, h.share, fun a ha => h.stored a fun hb => ha (hC a hb), fun a ha => h.bits a fun hb => ha (hC a hb), h.poisoned⟩

/-- A change that leaves the table store alone, and does not end TABLE_POISONED, reads nothing. -/
theorem State.ReadRun.of_store (hq : s.NoCountTrigger) (hs : t.tableStore = s.tableStore)
    (hp : (s.faults.get (.side .tablePoisoned x)).state ≠ .clear → (t.faults.get (.side .tablePoisoned x)).state ≠ .clear)
    (A : Nat → Prop) : s.ReadRun t x A := by
  refine ⟨fun i n => ?_, by rw [hs], fun a _ => by rw [hs], fun a _ => by rw [State.bitsAt, State.bitsAt, hs], hp⟩
  rw [hs]; exact hq i n

theorem State.dataAt_congr (h : t.tableStore = s.tableStore) (a : Nat) : t.dataAt a = s.dataAt a := by
  rw [State.dataAt, State.dataAt, State.bitsAt, State.bitsAt, h]

theorem State.NoCountTrigger.congr (hq : s.NoCountTrigger) (h : t.tableStore = s.tableStore) : t.NoCountTrigger := by
  intro i n; rw [h]; exact hq i n

theorem InjKind.flips_table (k : InjKind) : k.flips 22 = if k = .single then 8 else 40 := by cases k <;> decide

/-- Without a COUNT trigger the bits of a read are told from its address alone. -/
theorem State.asRead_bitsAt (hq : s.NoCountTrigger) (a : Nat) :
    asRead (takeInjection s.tableStore.injection a).1 (Mem.read tableDefault s.tableStore.mem a) = s.bitsAt a := by
  rcases hj : s.tableStore.injection with _ | ⟨k, ⟨b⟩ | ⟨n⟩, r⟩
  · simp [State.bitsAt, takeInjection, hj, asRead]
  · by_cases hb : b = a <;> simp [State.bitsAt, takeInjection, hj, asRead, hb, InjKind.flips_table]
  · exact (hq _ n hj rfl).elim

/-- The injection that a read leaves disturbs the reads of the other addresses as before. -/
theorem takeInjection_quiet {j : Option Injection} (hq : ∀ i n, j = some i → i.trigger ≠ .count n) (a : Nat) :
    (∀ i n, (takeInjection j a).2 = some i → i.trigger ≠ .count n) ∧
      ∀ b, b ≠ a → (takeInjection (takeInjection j a).2 b).1 = (takeInjection j b).1 := by
  rcases j with _ | ⟨k, ⟨c⟩ | ⟨n⟩, r⟩
  · simp [takeInjection]
  · by_cases hc : c = a
    · refine ⟨by simp [takeInjection, hc], fun b hb => ?_⟩
      simp [takeInjection, hc, Ne.symm hb]
    · have keeps : takeInjection (some ⟨k, .address c, r⟩) a = (none, some ⟨k, .address c, r⟩) := by simp [takeInjection, hc]
      rw [keeps]
      exact ⟨hq, fun _ _ => rfl⟩
  · exact (hq _ n rfl rfl).elim

/-- The words stored and the injection after a read, and TABLE_POISONED, which it does not touch. -/
theorem State.readTableWord_store (s : State) (x y : Side) (a : Nat) :
    (s.readTableWord x a).2.tableStore.leftShare = s.tableStore.leftShare ∧
    (∀ b, b ≠ a → Mem.read tableDefault (s.readTableWord x a).2.tableStore.mem b = Mem.read tableDefault s.tableStore.mem b) ∧
    (s.readTableWord x a).2.faults.get (.side .tablePoisoned y) = s.faults.get (.side .tablePoisoned y) := by
  unfold State.readTableWord
  dsimp only
  split
  · exact ⟨rfl, fun _ _ => rfl, rfl⟩
  · refine ⟨by simp [State.reportCorrected, State.offerTable, State.writeTableWords], fun b hb => ?_, ?_⟩
    · simp only [State.reportCorrected, State.raise_tableStore, State.offerTable, State.writeTableWords]
      exact Mem.read_writeBlock_out _ _ _ _ (by simp; omega)
    · simp [State.reportCorrected, State.raise_faults, FaultTable.get_set, State.offerTable, State.writeTableWords]
  · exact ⟨rfl, fun _ _ => rfl, rfl⟩

/-- A read of a word, of any side, is a run of its one address. -/
theorem State.readTableWord_run (hq : s.NoCountTrigger) (y : Side) (a : Nat) :
    s.ReadRun (s.readTableWord y a).2 x (· = a) := by
  obtain ⟨hshare, hmem, hrec⟩ := s.readTableWord_store y x a
  obtain ⟨-, hinj, -⟩ := s.readTableWord_delivers y a
  obtain ⟨hquiet, hother⟩ := takeInjection_quiet hq a
  have hq' : (s.readTableWord y a).2.NoCountTrigger := by
    intro i n; rw [hinj]; exact hquiet i n
  refine ⟨hq', hshare, hmem, fun b hb => ?_, fun hp => by rw [hrec]; exact hp⟩
  rw [← State.asRead_bitsAt hq', ← State.asRead_bitsAt hq, hinj, hmem b hb, hother b hb]

theorem State.readTableWord_data (hq : s.NoCountTrigger) (x : Side) (a : Nat) : (s.readTableWord x a).1 = s.dataAt a := by
  rw [(s.readTableWord_delivers x a).1, State.asRead_bitsAt hq, State.dataAt]

/-! ## Defect entries (R157, R169) -/

/-- The entries of a side's list stand in order from the first on. -/
theorem poolAddr_eq (x : Side) (share i : Nat) : poolAddr x share i = poolAddr x share 0 + 2 * i := by
  cases x with
  | left => rfl
  | right => simp only [poolAddr]; omega

theorem poolAddr_ge (x : Side) (share i : Nat) : 2048 ≤ poolAddr x share i := by
  cases x <;> simp only [poolAddr] <;> omega

/-- The addresses of the entries numbered `is` of a side's list. -/
def PoolWords (x : Side) (share : Nat) (is : List Nat) (a : Nat) : Prop :=
  ∃ i ∈ is, a = poolAddr x share i ∨ a = poolAddr x share i + 1

theorem poolWords_cons {share i : Nat} {is : List Nat} {a : Nat} :
    PoolWords x share (i :: is) a ↔ PoolWords x share [i] a ∨ PoolWords x share is a := by
  simp [PoolWords, or_and_right, exists_or]

theorem not_poolWords {share i : Nat} {is : List Nat} (h : i ∉ is) :
    ¬ PoolWords x share is (poolAddr x share i) ∧ ¬ PoolWords x share is (poolAddr x share i + 1) := by
  have other : ∀ k ∈ is, i ≠ k := fun k hk hik => h (hik ▸ hk)
  have hi := poolAddr_eq x share i
  refine ⟨fun ⟨k, hk, ha⟩ => ?_, fun ⟨k, hk, ha⟩ => ?_⟩ <;>
    (have := other k hk; have := poolAddr_eq x share k; omega)

theorem poolWords_ge {share : Nat} {is : List Nat} {a : Nat} (h : PoolWords x share is a) : 2048 ≤ a := by
  obtain ⟨i, -, h⟩ := h
  have := poolAddr_ge x share i
  omega

/-- What is read of an entry is told from its two addresses. -/
theorem State.entryAt_congr (i : Nat) (hs : t.tableStore.leftShare = s.tableStore.leftShare)
    (h0 : t.dataAt (poolAddr x s.tableStore.leftShare i) = s.dataAt (poolAddr x s.tableStore.leftShare i))
    (h1 : t.dataAt (poolAddr x s.tableStore.leftShare i + 1) = s.dataAt (poolAddr x s.tableStore.leftShare i + 1)) :
    t.entryAt x i = s.entryAt x i := by
  rw [State.entryAt, State.entryAt, hs, h0, h1]

theorem entryOfWords_eq (a b : Word) : entryOfWords a b = { row := a.toNat, col := b.toNat % 2048, cls := b.extractLsb' 14 2 } := by
  simp [entryOfWords, BitVec.extractLsb'_toNat]

theorem State.readEntry_snd (s : State) (x : Side) (i : Nat) :
    (s.readEntry x i).2 = ((s.readTableWord x (poolAddr x s.tableStore.leftShare i)).2.readTableWord x
      (poolAddr x s.tableStore.leftShare i + 1)).2 := by
  unfold State.readEntry
  dsimp only
  split <;> rfl

/-- A read of an entry delivers it, or none, and changes no side. -/
theorem State.readEntry_reads (hq : s.NoCountTrigger) (x : Side) (i : Nat) :
    (s.readEntry x i).1 = s.entryAt x i ∧ (s.readEntry x i).2.sides = s.sides ∧
      (s.readEntry x i).2.faults.get (.side .tablePoisoned x) = s.faults.get (.side .tablePoisoned x) ∧
      ∀ y, s.ReadRun (s.readEntry x i).2 y (PoolWords x s.tableStore.leftShare [i]) := by
  obtain ⟨a, ha⟩ : ∃ a, a = poolAddr x s.tableStore.leftShare i := ⟨_, rfl⟩
  have run0 := fun y => State.readTableWord_run (x := y) hq x a
  have hq0 := (run0 x).quiet
  have run1 := fun y => State.readTableWord_run (x := y) hq0 x (a + 1)
  have data1 : ((s.readTableWord x a).2.readTableWord x (a + 1)).1 = s.dataAt (a + 1) := by
    rw [State.readTableWord_data hq0, (run0 x).data (by omega)]
  have snd := s.readEntry_snd x i
  rw [← ha] at snd
  refine ⟨?_, ?_, ?_, fun y => ?_⟩
  · unfold State.readEntry
    dsimp only
    rw [← ha, State.readTableWord_data hq, data1, State.entryAt, ← ha]
    cases s.dataAt a <;> cases s.dataAt (a + 1) <;> simp [entryOfWords_eq]
  · rw [snd, (State.readTableWord_delivers _ x _).2.2, (State.readTableWord_delivers _ x _).2.2]
  · rw [snd, (State.readTableWord_store _ x x _).2.2, (State.readTableWord_store _ x x _).2.2]
  · rw [snd]
    exact (run0 y).trans (run1 y) fun b hb => ⟨i, List.mem_singleton_self i, by rw [← ha]; exact hb⟩

/-- Whether a state has lost an entry, or another had. -/
theorem State.loseEntry_spec (hq : s.NoCountTrigger) (x : Side) :
    ((s.loseEntry x).side x).tables = { (s.side x).tables with defectLoss := true, poisonCond := true } ∧
      ((s.loseEntry x).faults.get (.side .tablePoisoned x)).state ≠ .clear ∧ (s.loseEntry x).tableStore = s.tableStore ∧
      ∀ y, s.ReadRun (s.loseEntry x) y (fun _ => False) := by
  obtain ⟨htab, hset, -, hst⟩ := State.raisePoison_spec
    (s.onSide x (fun d => { d with tables := { d.tables with defectLoss := true } })) x 13
  refine ⟨?_, hset, hst, fun y => .of_store hq hst (fun hp => ?_) _⟩
  · refine htab.trans ?_
    rw [State.onSide_side]
  · by_cases hy : y = x
    · subst hy; exact hset
    · unfold State.raisePoison
      simpa [State.raise_faults, FaultTable.get_set, hy] using hp

/-- The tables of a side when a read of its list has lost an entry, or has not (R169). -/
def SideTables.withLoss (d : SideTables) (lost : Bool) : SideTables :=
  { d with defectLoss := d.defectLoss || lost, poisonCond := d.poisonCond || lost }

/-- A run of reads of entries, each read once: what it delivers, and what a loss leaves (R169). -/
theorem State.readEntries_reads (x : Side) (is : List Nat) (hn : is.Nodup) (s : State) (hq : s.NoCountTrigger) :
    (State.readEntries x is s).1 = is.filterMap (s.entryAt x) ∧
      (((State.readEntries x is s).2.side x).tables =
        (s.side x).tables.withLoss (decide ((is.filterMap (s.entryAt x)).length < is.length))) ∧
      ((is.filterMap (s.entryAt x)).length < is.length →
        ((State.readEntries x is s).2.faults.get (.side .tablePoisoned x)).state ≠ .clear) ∧
      ((is.filterMap (s.entryAt x)).length = is.length →
        (State.readEntries x is s).2.faults.get (.side .tablePoisoned x) = s.faults.get (.side .tablePoisoned x)) ∧
      ∀ y, s.ReadRun (State.readEntries x is s).2 y (PoolWords x s.tableStore.leftShare is) := by
  induction is generalizing s with
  | nil =>
    refine ⟨rfl, ?_, fun h => absurd h (Nat.lt_irrefl _), fun _ => rfl, fun y => .of_store hq rfl id _⟩
    simp [State.readEntries, SideTables.withLoss]
  | cons i is ih =>
    obtain ⟨hi, hn⟩ := List.nodup_cons.mp hn
    obtain ⟨hfst, hsides, hrec, hrun⟩ := State.readEntry_reads hq x i
    have hlen : (is.filterMap (s.entryAt x)).length ≤ is.length := List.length_filterMap_le _ _
    have same : ∀ (t : State), s.ReadRun t x (PoolWords x s.tableStore.leftShare [i]) →
        is.filterMap (t.entryAt x) = is.filterMap (s.entryAt x) := fun t h => List.filterMap_congr fun k hk => by
      have hk : k ∉ [i] := fun g => hi (List.mem_singleton.mp g ▸ hk)
      exact State.entryAt_congr k h.share (h.data (not_poolWords hk).1) (h.data (not_poolWords hk).2)
    unfold State.readEntries
    dsimp only
    cases he : s.entryAt x i with
    | some e =>
      rw [he] at hfst
      rw [hfst, List.filterMap_cons_some he]
      obtain ⟨ifst, itab, ilost, irec, irun⟩ := ih hn (s.readEntry x i).2 (hrun x).quiet
      rw [same _ (hrun x)] at ifst itab ilost irec
      have hside : (s.readEntry x i).2.side x = s.side x := by rw [State.side, State.side, hsides]
      rw [hside] at itab
      refine ⟨by rw [ifst], ?_, fun h => ilost (by simpa using h), fun h => (irec (by simpa using h)).trans hrec, fun y => ?_⟩
      · simpa using itab
      · have h := irun y
        rw [(hrun x).share] at h
        exact (hrun y).trans h fun a ha => poolWords_cons.mpr ha
    | none =>
      rw [he] at hfst
      rw [hfst, List.filterMap_cons_none he]
      obtain ⟨ltab, lset, lstore, lrun⟩ := State.loseEntry_spec (hrun x).quiet x
      have run := fun y => (hrun y).trans (lrun y) (C := PoolWords x s.tableStore.leftShare [i]) fun a ha => ha.resolve_right id
      obtain ⟨ifst, itab, ilost, irec, irun⟩ := ih hn ((s.readEntry x i).2.loseEntry x) (lrun x).quiet
      rw [same _ (run x)] at ifst itab ilost irec
      have hside : (s.readEntry x i).2.side x = s.side x := by rw [State.side, State.side, hsides]
      rw [ltab, hside] at itab
      refine ⟨ifst, ?_, fun _ => (irun x).poisoned lset, fun h => absurd h (by simp only [List.length_cons]; omega), fun y => ?_⟩
      · rw [itab]
        simp [SideTables.withLoss, Nat.lt_succ_of_le hlen]
      · have h := irun y
        rw [(run x).share] at h
        exact (run y).trans h fun a ha => poolWords_cons.mpr ha

end Sys2Proof.Machine
end

section
/-! Reads of a whole defect list and of the working copies while no COUNT trigger is armed (R53, R57, R157, R163, R164, R169). -/

namespace Sys2Proof.Machine

variable {s t u : State} {x : Side}

/-! ## A defect list written and read (R169) -/

/-- The two words of each entry of a list stand in their places. -/
theorem flatten_wordsOfEntry (es : List DefectEntry) (i : Nat) (e : DefectEntry) (h : es[i]? = some e) :
    (es.map wordsOfEntry).flatten[2 * i]? = some (wordOf e.row) ∧
      (es.map wordsOfEntry).flatten[2 * i + 1]? = some (wordOf (e.col % 2048 + 16384 * e.cls.toNat)) := by
  induction es generalizing i with
  | nil => cases h
  | cons d es ih =>
    cases i with
    | zero =>
      obtain rfl : d = e := by simpa using h
      exact ⟨rfl, rfl⟩
    | succ i =>
      obtain ⟨h0, h1⟩ := ih i (by simpa using h)
      exact ⟨h0, h1⟩

theorem flatten_wordsOfEntry_length (es : List DefectEntry) : (es.map wordsOfEntry).flatten.length = 2 * es.length := by
  induction es with
  | nil => rfl
  | cons d es ih => simp only [List.map_cons, List.flatten_cons, List.length_append, ih, wordsOfEntry, List.length_cons]; simp; omega

/-- The list that is written stands in the pool (R155, R169). -/
theorem State.writeList_holds (s : State) (x : Side) (es : List DefectEntry) : (s.writeList x es).HoldsEntries x es := by
  intro i e h
  obtain ⟨h0, h1⟩ := flatten_wordsOfEntry es i e h
  have read : ∀ j w, (es.map wordsOfEntry).flatten[j]? = some w →
      Mem.read tableDefault (s.writeList x es).tableStore.mem (poolAddr x s.tableStore.leftShare 0 + j) = encodeWord 22 w := by
    intro j w hw
    obtain ⟨hj, hw⟩ := List.getElem?_eq_some_iff.mp hw
    have := Mem.read_writeBlock_in (dflt := tableDefault) s.tableStore.mem (poolAddr x s.tableStore.leftShare 0)
      ((es.map wordsOfEntry).flatten.map (encodeWord 22)) j (by rwa [List.length_map])
    rw [List.getElem_map, hw] at this
    exact this
  have share : (s.writeList x es).tableStore.leftShare = s.tableStore.leftShare := rfl
  rw [share, poolAddr_eq x s.tableStore.leftShare i]
  exact ⟨read _ _ h0, read _ _ h1⟩

/-- The list that is written changes the pool's words that it takes, and no read elsewhere. -/
theorem State.writeList_run (hq : s.NoCountTrigger) (x : Side) (es : List DefectEntry) (y : Side) :
    s.ReadRun (s.writeList x es) y (PoolWords x s.tableStore.leftShare (List.range es.length)) := by
  have stored : ∀ a, ¬ PoolWords x s.tableStore.leftShare (List.range es.length) a →
      Mem.read tableDefault (s.writeList x es).tableStore.mem a = Mem.read tableDefault s.tableStore.mem a := fun a ha => by
    refine Mem.read_writeBlock_out _ _ _ _ ?_
    rw [List.length_map, flatten_wordsOfEntry_length]
    by_contra hin
    refine ha ⟨(a - poolAddr x s.tableStore.leftShare 0) / 2, List.mem_range.mpr (by omega), ?_⟩
    rw [poolAddr_eq]
    omega
  have quiet : (s.writeList x es).NoCountTrigger := hq
  refine ⟨quiet, rfl, stored, fun a ha => ?_, id⟩
  rw [← State.asRead_bitsAt quiet, ← State.asRead_bitsAt hq, stored a ha]
  rfl

/-- A read of a side's whole list with edits (R57, R169). -/
theorem State.readList_reads (hq : s.NoCountTrigger) (x : Side) (edits : List DefectEdit) (new : List DefectEntry) (lost : Bool)
    (hnew : new = applyEdits (s.entriesRead x) edits) (hlost : lost = decide ((s.entriesRead x).length < (s.side x).tables.defectCount)) :
    (s.readList x edits).1 = new ∧
      ((s.readList x edits).2.side x).tables = { (s.side x).tables.withLoss lost with defectCount := new.length } ∧
      (lost = true → ((s.readList x edits).2.faults.get (.side .tablePoisoned x)).state ≠ .clear) ∧
      (lost = false → (s.readList x edits).2.faults.get (.side .tablePoisoned x) = s.faults.get (.side .tablePoisoned x)) ∧
      ((lost = true ∨ edits ≠ []) → (s.readList x edits).2.HoldsEntries x new) ∧
      ∀ y, s.ReadRun (s.readList x edits).2 y
        (PoolWords x s.tableStore.leftShare (List.range (max (s.side x).tables.defectCount new.length))) := by
  obtain ⟨n, hn⟩ : ∃ n, n = (s.side x).tables.defectCount := ⟨_, rfl⟩
  obtain ⟨hfst, htab, hset, hrec, hrun⟩ := State.readEntries_reads x (List.range n) List.nodup_range s hq
  have hread : (List.range n).filterMap (s.entryAt x) = s.entriesRead x := by rw [hn]; rfl
  have hle : (s.entriesRead x).length ≤ n := by rw [← hread]; simpa using List.length_filterMap_le (s.entryAt x) (List.range n)
  rw [hread, List.length_range] at htab hset hrec
  rw [hread] at hfst
  rw [← hn] at hlost ⊢
  have widen : ∀ m, m ≤ max n new.length → ∀ a, PoolWords x s.tableStore.leftShare (List.range m) a →
      PoolWords x s.tableStore.leftShare (List.range (max n new.length)) a := fun m hm a ⟨i, hi, ha⟩ =>
    ⟨i, List.mem_range.mpr (Nat.lt_of_lt_of_le (List.mem_range.mp hi) hm), ha⟩
  have unfolded : s.readList x edits =
      if lost = true ∨ edits ≠ [] then (new, (State.readEntries x (List.range n) s).2.writeList x new)
      else (new, (State.readEntries x (List.range n) s).2) := by
    rw [hnew, hlost, ← hfst, hn]
    simp only [decide_eq_true_eq]
    rfl
  have hlost' : lost = true → (s.entriesRead x).length < n := fun h => by rw [hlost] at h; simpa using h
  have hkept : lost = false → (s.entriesRead x).length = n := fun h => by
    rw [hlost] at h
    have : ¬ (s.entriesRead x).length < n := by simpa using h
    omega
  rw [unfolded]
  by_cases hw : lost = true ∨ edits ≠ []
  · rw [if_pos hw]
    have wrun := fun y => State.writeList_run (hrun x).quiet x new y
    rw [(hrun x).share] at wrun
    refine ⟨rfl, ?_, fun h => (wrun x).poisoned (hset (hlost' h)), fun h => hrec (hkept h), fun _ => State.writeList_holds _ _ _,
      fun y => (hrun y).trans (wrun y) fun a ha => ?_⟩
    · rw [State.writeList, State.onSide_side]
      rw [hlost, ← htab]
      rfl
    · rcases ha with ha | ha
      · exact widen n (Nat.le_max_left _ _) a ha
      · exact widen _ (Nat.le_max_right _ _) a ha
  · rw [if_neg hw]
    obtain ⟨hl, he⟩ : lost = false ∧ edits = [] := by simpa using hw
    have hnew' : new = s.entriesRead x := by rw [hnew, he]; rfl
    refine ⟨rfl, ?_, fun h => hset (hlost' h), fun h => hrec (hkept h), fun h => absurd h hw,
      fun y => (hrun y).mono (widen n (Nat.le_max_left _ _))⟩
    rw [htab, hlost, hnew', hkept hl, hn]
    rfl

/-! ## Words of an active bank (R155, R157, R164) -/

/-- The addresses of some words of a bank. -/
def BankWords (x : Side) (tb : TableId) (p : PhysBank) (js : List Nat) (a : Nat) : Prop := ∃ j ∈ js, a = tableAddr x tb p j

theorem bankWords_cons {tb : TableId} {p : PhysBank} {j : Nat} {js : List Nat} {a : Nat} :
    BankWords x tb p (j :: js) a ↔ a = tableAddr x tb p j ∨ BankWords x tb p js a := by
  simp [BankWords]

/-- The tables of a side with the active bank `p` of a table poisoned at an index, if there is one (R155, R164). -/
def SideTables.withBad (d : SideTables) (tb : TableId) (p : PhysBank) : Option Nat → SideTables
  | none => d
  | some j => { d with ctl := d.ctl.set tb ((d.ctl.get tb).poisonAt p j), poisonCond := true }

theorem PerTable.set_set {α : Type} (p : PerTable α) (tb : TableId) (a b : α) : (p.set tb a).set tb b = p.set tb b := by
  cases tb <;> rfl

theorem TableCtl.poisonAt_poisonAt (c : TableCtl) (p : PhysBank) (i j : Nat) : (c.poisonAt p i).poisonAt p j = c.poisonAt p i := by
  have h : ((c.poisonAt p i).bad p).isSome := by
    unfold TableCtl.poisonAt
    split
    · assumption
    · simp [TableCtl.bad_setBad]
  conv_lhs => rw [TableCtl.poisonAt]
  exact if_pos h

/-- The first poisoning of a bank stands. -/
theorem SideTables.withBad_withBad (d : SideTables) (tb : TableId) (p : PhysBank) (i : Nat) (o : Option Nat) :
    (d.withBad tb p (some i)).withBad tb p o = d.withBad tb p (some i) := by
  cases o with
  | none => rfl
  | some j => simp [SideTables.withBad, PerTable.set_set, TableCtl.poisonAt_poisonAt]

theorem SideTables.withBad_active (d : SideTables) (tb u : TableId) (p : PhysBank) (o : Option Nat) :
    ((d.withBad tb p o).ctl.get u).active = (d.ctl.get u).active := by
  cases o with
  | none => rfl
  | some j =>
    simp only [SideTables.withBad, PerTable.get_set]
    split
    · next h => rw [h, TableCtl.poisonAt_active]
    · rfl

/-- A read of a word of the active bank (R155, R156, R164). -/
theorem State.readBankWord_reads (hq : s.NoCountTrigger) (x : Side) (tb : TableId) (p : PhysBank) (j : Nat)
    (hp : p = ((s.side x).tables.ctl.get tb).active) :
    (s.readBankWord x tb p j).1 = s.dataAt (tableAddr x tb p j) ∧
      ((s.dataAt (tableAddr x tb p j)).isSome → (s.readBankWord x tb p j).2.sides = s.sides ∧
        (s.readBankWord x tb p j).2.faults.get (.side .tablePoisoned x) = s.faults.get (.side .tablePoisoned x)) ∧
      (s.dataAt (tableAddr x tb p j) = none →
        ((s.readBankWord x tb p j).2.side x).tables = (s.side x).tables.withBad tb p (some j) ∧
        ((s.readBankWord x tb p j).2.faults.get (.side .tablePoisoned x)).state ≠ .clear) ∧
      s.ReadRun (s.readBankWord x tb p j).2 x (· = tableAddr x tb p j) := by
  have run := State.readTableWord_run (x := x) hq x (tableAddr x tb p j)
  have data := State.readTableWord_data hq x (tableAddr x tb p j)
  rw [State.readBankWord_eq, data]
  cases hd : s.dataAt (tableAddr x tb p j) with
  | some v =>
    exact ⟨rfl, fun _ => ⟨(State.readTableWord_delivers s x _).2.2, (State.readTableWord_store s x x _).2.2⟩,
      fun h => by (cases h), run⟩
  | none =>
    dsimp only
    rw [State.readTableWord_side, if_pos hp]
    obtain ⟨w, hw⟩ : ∃ w, w = (s.readTableWord x (tableAddr x tb p j)).2.onSide x (fun d => { d with tables := { d.tables with
        ctl := d.tables.ctl.set tb (((s.side x).tables.ctl.get tb).poisonAt p j) } }) := ⟨_, rfl⟩
    obtain ⟨htab, hset, -, hst⟩ := State.raisePoison_spec w x tb.num
    rw [← hw]
    refine ⟨rfl, fun h => by simp at h, fun _ => ⟨?_, hset⟩, run.trans (.of_store ?_ ?_ (fun _ => hset) fun _ => False)
      fun a ha => ha.resolve_right id⟩
    · rw [htab, hw, State.onSide_side, State.readTableWord_side]
      rfl
    · exact run.quiet
    · rw [hst, hw, State.onSide_tableStore]

/-- The first word, of those numbered `js` of a bank, that a read finds uncorrectable. -/
def State.firstLost (s : State) (x : Side) (tb : TableId) (p : PhysBank) (js : List Nat) : Option Nat :=
  js.find? (fun j => (s.dataAt (tableAddr x tb p j)).isNone)

theorem tableAddr_inj {tb : TableId} {p : PhysBank} {i j : Nat} (h : tableAddr x tb p i = tableAddr x tb p j) : i = j := by
  unfold tableAddr at h; omega

/-- A run of reads of an active bank, each word read once (R157, R164). -/
theorem State.readBankWords_reads (x : Side) (tb : TableId) (p : PhysBank) (js : List Nat) (hn : js.Nodup) (s : State)
    (hq : s.NoCountTrigger) (hp : p = ((s.side x).tables.ctl.get tb).active) :
    (State.readBankWords x tb p js s).1 = js.map (fun j => s.dataAt (tableAddr x tb p j)) ∧
      ((State.readBankWords x tb p js s).2.side x).tables = (s.side x).tables.withBad tb p (s.firstLost x tb p js) ∧
      (s.firstLost x tb p js = none → (State.readBankWords x tb p js s).2.faults.get (.side .tablePoisoned x) =
        s.faults.get (.side .tablePoisoned x)) ∧
      (s.firstLost x tb p js ≠ none → ((State.readBankWords x tb p js s).2.faults.get (.side .tablePoisoned x)).state ≠ .clear) ∧
      s.ReadRun (State.readBankWords x tb p js s).2 x (BankWords x tb p js) := by
  induction js generalizing s with
  | nil => exact ⟨rfl, rfl, fun _ => rfl, fun h => absurd rfl h, .of_store hq rfl id _⟩
  | cons j js ih =>
    obtain ⟨hj, hn⟩ := List.nodup_cons.mp hn
    obtain ⟨hfst, hsome, hnone, hrun⟩ := State.readBankWord_reads hq x tb p j hp
    have same : ∀ k ∈ js, (s.readBankWord x tb p j).2.dataAt (tableAddr x tb p k) = s.dataAt (tableAddr x tb p k) :=
      fun k hk => hrun.data fun h => hj (tableAddr_inj h ▸ hk)
    have hfirst : (s.readBankWord x tb p j).2.firstLost x tb p js = s.firstLost x tb p js := by
      unfold State.firstLost
      exact List.find?_congr fun k hk => by rw [same k hk]
    have hp' : p = (((s.readBankWord x tb p j).2.side x).tables.ctl.get tb).active :=
      hp.trans ((State.readBankWord_frame s x tb p j).active tb).symm
    obtain ⟨ifst, itab, irec, iset, irun⟩ := ih hn (s.readBankWord x tb p j).2 hrun.quiet hp'
    rw [List.map_congr_left same] at ifst
    rw [hfirst] at itab irec iset
    have run := hrun.trans irun (C := BankWords x tb p (j :: js)) fun a ha => bankWords_cons.mpr ha
    have unfolded : State.readBankWords x tb p (j :: js) s =
      ((s.readBankWord x tb p j).1 :: (State.readBankWords x tb p js (s.readBankWord x tb p j).2).1,
        (State.readBankWords x tb p js (s.readBankWord x tb p j).2).2) := rfl
    rw [unfolded, hfst]
    dsimp only
    cases hd : s.dataAt (tableAddr x tb p j) with
    | some v =>
      obtain ⟨hsides, hrec⟩ := hsome (by rw [hd]; rfl)
      have hcons : s.firstLost x tb p (j :: js) = s.firstLost x tb p js := by simp [State.firstLost, hd]
      rw [hcons, List.map_cons, hd, ifst, itab, State.side, hsides]
      exact ⟨rfl, rfl, fun h => (irec h).trans hrec, iset, run⟩
    | none =>
      obtain ⟨htab, hset⟩ := hnone hd
      have hcons : s.firstLost x tb p (j :: js) = some j := by simp [State.firstLost, hd]
      rw [hcons, List.map_cons, hd, ifst, itab, htab, SideTables.withBad_withBad]
      exact ⟨rfl, rfl, fun h => by (cases h), fun _ => irun.poisoned hset, run⟩

end Sys2Proof.Machine
end

section
/-! The working copies of a side's tables (R53, R157, R163, R164). -/

namespace Sys2Proof.Machine

variable {s t u : State} {x : Side}

/-! ## One table -/

/-- The word at which the read of a table's active bank poisons it, if it does; a poisoned bank is not read (R155, R164). -/
def State.failedBank (s : State) (x : Side) (tb : TableId) : Option Nat :=
  if ((s.side x).tables.ctl.get tb).bad ((s.side x).tables.ctl.get tb).active = none then
    s.firstLost x tb ((s.side x).tables.ctl.get tb).active (List.range tb.words)
  else none

/-- The words that a working copy takes from the store (R53, R163). -/
def State.wordsRead (s : State) (x : Side) (tb : TableId) : List Word :=
  (List.range tb.words).map (fun j => (s.dataAt (tableAddr x tb ((s.side x).tables.ctl.get tb).active j)).getD 0)

/-- The working copy that a table gives (R53, R163, R164). -/
def State.copyOf (s : State) (x : Side) (tb : TableId) : List Word :=
  if ((s.side x).tables.ctl.get tb).bad ((s.side x).tables.ctl.get tb).active = none ∧ s.failedBank x tb = none then s.wordsRead x tb
  else romTable x tb

theorem State.copyTable_poisoned {tb : TableId}
    (h : ((s.side x).tables.ctl.get tb).bad ((s.side x).tables.ctl.get tb).active ≠ none) : s.copyTable x tb = (romTable x tb, s) := by
  obtain ⟨j, hj⟩ := Option.ne_none_iff_exists'.mp h
  simp [State.copyTable, hj]

theorem State.copyTable_read {tb : TableId}
    (h : ((s.side x).tables.ctl.get tb).bad ((s.side x).tables.ctl.get tb).active = none) :
    s.copyTable x tb =
      (if (State.readBankWords x tb ((s.side x).tables.ctl.get tb).active (List.range tb.words) s).1.all Option.isSome then
          (State.readBankWords x tb ((s.side x).tables.ctl.get tb).active (List.range tb.words) s).1.map (fun v => v.getD 0)
        else romTable x tb,
        (State.readBankWords x tb ((s.side x).tables.ctl.get tb).active (List.range tb.words) s).2) := by
  simp only [State.copyTable, h]
  split <;> rfl

/-- The working copy of one table, and what its reads leave. -/
theorem State.copyTable_reads (hq : s.NoCountTrigger) (x : Side) (tb : TableId) :
    (s.copyTable x tb).1 = s.copyOf x tb ∧
      ((s.copyTable x tb).2.side x).tables =
        (s.side x).tables.withBad tb ((s.side x).tables.ctl.get tb).active (s.failedBank x tb) ∧
      (s.failedBank x tb = none →
        (s.copyTable x tb).2.faults.get (.side .tablePoisoned x) = s.faults.get (.side .tablePoisoned x)) ∧
      (s.failedBank x tb ≠ none → ((s.copyTable x tb).2.faults.get (.side .tablePoisoned x)).state ≠ .clear) ∧
      s.ReadRun (s.copyTable x tb).2 x (BankWords x tb ((s.side x).tables.ctl.get tb).active (List.range tb.words)) := by
  obtain ⟨p, hp⟩ : ∃ p, p = ((s.side x).tables.ctl.get tb).active := ⟨_, rfl⟩
  by_cases hb : ((s.side x).tables.ctl.get tb).bad p = none
  · obtain ⟨hfst, htab, hrec, hset, hrun⟩ := State.readBankWords_reads x tb p (List.range tb.words) List.nodup_range s hq hp
    have hfail : s.failedBank x tb = s.firstLost x tb p (List.range tb.words) := by
      rw [State.failedBank, ← hp, if_pos hb]
    rw [State.copyTable_read (hp ▸ hb), ← hp, hfail, State.copyOf, State.wordsRead, hfail, ← hp]
    refine ⟨?_, htab, hrec, hset, hrun⟩
    have all : (State.readBankWords x tb p (List.range tb.words) s).1.all Option.isSome = true ↔
        s.firstLost x tb p (List.range tb.words) = none := by
      rw [hfst, State.firstLost, List.find?_eq_none]
      simp [Option.isSome_iff_ne_none]
    by_cases hl : s.firstLost x tb p (List.range tb.words) = none
    · rw [if_pos (all.mpr hl), if_pos ⟨hb, hl⟩, hfst, List.map_map]
      rfl
    · rw [if_neg fun h => hl (all.mp h), if_neg fun h => hl h.2]
  · have hfail : s.failedBank x tb = none := by rw [State.failedBank, ← hp, if_neg hb]
    rw [State.copyTable_poisoned (hp ▸ hb), State.copyOf, hfail, if_neg fun h => hb (hp ▸ h.1)]
    exact ⟨rfl, rfl, fun _ => rfl, fun h => absurd rfl h, .of_store hq rfl id _⟩

/-! ## All tables -/

theorem TableId.mem_all (tb : TableId) : tb ∈ TableId.all := by cases tb <;> decide

theorem TableId.nodup_all : TableId.all.Nodup := by decide

/-- The tables of a bank block take disjoint runs of words (R153). -/
theorem TableId.disjoint {tb u : TableId} (h : tb ≠ u) : tb.offset + tb.words ≤ u.offset ∨ u.offset + u.words ≤ tb.offset := by
  have all : ∀ tb ∈ TableId.all, ∀ u ∈ TableId.all, tb ≠ u →
      tb.offset + tb.words ≤ u.offset ∨ u.offset + u.words ≤ tb.offset := by decide
  exact all tb tb.mem_all u u.mem_all h

theorem not_bankWords {tb u : TableId} (h : u ≠ tb) (p q : PhysBank) {j : Nat} (hj : j < u.words) :
    ¬ BankWords x tb p (List.range tb.words) (tableAddr x u q j) := by
  rintro ⟨i, hi, ha⟩
  have hi := List.mem_range.mp hi
  have hd := TableId.disjoint h
  have htb := offset_fits tb
  have hu := offset_fits u
  unfold tableAddr at ha
  cases p <;> cases q <;> simp only [PhysBank.num] at ha <;> omega

/-- The addresses of the tables `tbs` of a side, either bank. -/
def TablesWords (x : Side) (tbs : List TableId) (a : Nat) : Prop := ∃ tb ∈ tbs, ∃ p, BankWords x tb p (List.range tb.words) a

theorem tablesWords_cons {tb : TableId} {tbs : List TableId} {a : Nat} :
    TablesWords x (tb :: tbs) a ↔ (∃ p, BankWords x tb p (List.range tb.words) a) ∨ TablesWords x tbs a := by
  simp [TablesWords]

theorem tablesWords_lt {tbs : List TableId} {a : Nat} (h : TablesWords x tbs a) : a < 2048 := by
  obtain ⟨tb, -, p, j, hj, rfl⟩ := h
  exact tableAddr_lt x tb p j (List.mem_range.mp hj)

/-- A control record whose active bank a read has poisoned at an index, or has not. -/
def TableCtl.failAt (c : TableCtl) : Option Nat → TableCtl
  | none => c
  | some j => c.poisonAt c.active j

theorem SideTables.withBad_get (d : SideTables) (tb u : TableId) (o : Option Nat) :
    (d.withBad tb (d.ctl.get tb).active o).ctl.get u = if u = tb then (d.ctl.get tb).failAt o else d.ctl.get u := by
  cases o with
  | none =>
    split
    · next h => rw [h]; rfl
    · rfl
  | some j => simp only [SideTables.withBad, PerTable.get_set, TableCtl.failAt]

theorem SideTables.withBad_frame (d : SideTables) (tb : TableId) (p : PhysBank) (o : Option Nat) :
    { d.withBad tb p o with ctl := d.ctl, poisonCond := d.poisonCond } = d := by
  cases o <;> rfl

theorem SideTables.withBad_poisonCond (d : SideTables) (tb : TableId) (p : PhysBank) (o : Option Nat) :
    (d.withBad tb p o).poisonCond = (d.poisonCond || o.isSome) := by
  cases o <;> simp [SideTables.withBad]

/-- What a table gives is told from its control record and the reads of its words. -/
theorem State.copyOf_congr {tb : TableId} (hc : (t.side x).tables.ctl.get tb = (s.side x).tables.ctl.get tb)
    (hd : ∀ p j, j < tb.words → t.dataAt (tableAddr x tb p j) = s.dataAt (tableAddr x tb p j)) :
    t.copyOf x tb = s.copyOf x tb ∧ t.failedBank x tb = s.failedBank x tb := by
  have words : t.wordsRead x tb = s.wordsRead x tb := by
    unfold State.wordsRead
    rw [hc]
    exact List.map_congr_left fun j hj => by rw [hd _ _ (List.mem_range.mp hj)]
  have fails : t.failedBank x tb = s.failedBank x tb := by
    unfold State.failedBank State.firstLost
    rw [hc]
    split
    · exact List.find?_congr fun j hj => by rw [hd _ _ (List.mem_range.mp hj)]
    · rfl
  refine ⟨?_, fails⟩
  rw [State.copyOf, State.copyOf, words, fails, hc]

/-- The working copies of some tables, each read once, and what their reads leave. -/
theorem State.copyTables_reads (x : Side) (tbs : List TableId) (hn : tbs.Nodup) (acc : PerTable (List Word)) (s : State)
    (hq : s.NoCountTrigger) :
    (∀ tb, (State.copyTables x tbs acc s).1.get tb = if tb ∈ tbs then s.copyOf x tb else acc.get tb) ∧
      (∀ tb, ((State.copyTables x tbs acc s).2.side x).tables.ctl.get tb =
        if tb ∈ tbs then ((s.side x).tables.ctl.get tb).failAt (s.failedBank x tb) else (s.side x).tables.ctl.get tb) ∧
      { ((State.copyTables x tbs acc s).2.side x).tables with
          ctl := (s.side x).tables.ctl, poisonCond := (s.side x).tables.poisonCond } = (s.side x).tables ∧
      ((∀ tb ∈ tbs, s.failedBank x tb = none) →
        ((State.copyTables x tbs acc s).2.side x).tables.poisonCond = (s.side x).tables.poisonCond ∧
        (State.copyTables x tbs acc s).2.faults.get (.side .tablePoisoned x) = s.faults.get (.side .tablePoisoned x)) ∧
      (∀ tb ∈ tbs, s.failedBank x tb ≠ none → ((State.copyTables x tbs acc s).2.side x).tables.poisonCond = true ∧
        ((State.copyTables x tbs acc s).2.faults.get (.side .tablePoisoned x)).state ≠ .clear) ∧
      ((s.side x).tables.poisonCond = true → ((State.copyTables x tbs acc s).2.side x).tables.poisonCond = true) ∧
      s.ReadRun (State.copyTables x tbs acc s).2 x (TablesWords x tbs) := by
  induction tbs generalizing acc s with
  | nil =>
    exact ⟨fun _ => by simp [State.copyTables], fun _ => by simp [State.copyTables], rfl, fun _ => ⟨rfl, rfl⟩,
      fun tb h => by simp at h, id, .of_store hq rfl id _⟩
  | cons tb tbs ih =>
    obtain ⟨htb, hn⟩ := List.nodup_cons.mp hn
    obtain ⟨hfst, htab, hrec, hset, hrun⟩ := State.copyTable_reads hq x tb
    obtain ⟨w, hw⟩ : ∃ w, w = (s.copyTable x tb).2 := ⟨_, rfl⟩
    rw [← hw] at htab hrec hset hrun
    have hctl : ∀ v, (w.side x).tables.ctl.get v =
        if v = tb then ((s.side x).tables.ctl.get tb).failAt (s.failedBank x tb) else (s.side x).tables.ctl.get v := fun v => by
      rw [htab, SideTables.withBad_get]
    have same : ∀ v ∈ tbs, w.copyOf x v = s.copyOf x v ∧ w.failedBank x v = s.failedBank x v := fun v hv => by
      have hne : v ≠ tb := fun h => htb (h ▸ hv)
      exact State.copyOf_congr (by rw [hctl, if_neg hne]) fun p j hj => hrun.data (not_bankWords hne _ p hj)
    obtain ⟨icopy, ictl, iframe, iclean, iset, ikeep, irun⟩ := ih hn (acc.set tb (s.copyOf x tb)) w hrun.quiet
    have unfolded : State.copyTables x (tb :: tbs) acc s = State.copyTables x tbs (acc.set tb (s.copyOf x tb)) w := by
      rw [State.copyTables, hfst, ← hw]
    have hcond : (w.side x).tables.poisonCond = ((s.side x).tables.poisonCond || (s.failedBank x tb).isSome) := by
      rw [htab, SideTables.withBad_poisonCond]
    rw [unfolded]
    refine ⟨fun v => ?_, fun v => ?_, ?_, fun h => ?_, fun v hv hf => ?_, fun h => ikeep (by rw [hcond, h]; rfl), ?_⟩
    · rw [icopy, PerTable.get_set]
      by_cases hv : v = tb
      · subst hv; simp [htb]
      · by_cases hm : v ∈ tbs
        · simp [hm, (same v hm).1]
        · simp [hm, hv]
    · rw [ictl, hctl]
      by_cases hv : v = tb
      · subst hv; simp [htb]
      · by_cases hm : v ∈ tbs
        · simp [hm, hv, (same v hm).2]
        · simp [hm, hv]
    · have hframe := SideTables.withBad_frame (s.side x).tables tb ((s.side x).tables.ctl.get tb).active (s.failedBank x tb)
      rw [← htab] at hframe
      have g := congrArg (fun d : SideTables =>
        { d with ctl := (s.side x).tables.ctl, poisonCond := (s.side x).tables.poisonCond }) iframe
      exact g.trans hframe
    · obtain ⟨h1, h2⟩ := iclean fun v hv => (same v hv).2.trans (h v (List.mem_cons_of_mem _ hv))
      have hf := h tb List.mem_cons_self
      exact ⟨by rw [h1, hcond, hf]; simp, h2.trans (hrec hf)⟩
    · rcases List.mem_cons.mp hv with rfl | hv
      · refine ⟨ikeep ?_, irun.poisoned (hset hf)⟩
        rw [hcond, Option.isSome_iff_ne_none.mpr hf, Bool.or_true]
      · exact iset v hv ((same v hv).2 ▸ hf)
    · exact hrun.trans irun fun a ha => tablesWords_cons.mpr (ha.imp_left fun h => ⟨_, h⟩)

/-! ## A poisoned bank, whatever trigger is armed -/

theorem State.readBankWord_ctl_other {tb v : TableId} (h : v ≠ tb) (s : State) (x : Side) (p : PhysBank) (j : Nat) :
    ((s.readBankWord x tb p j).2.side x).tables.ctl.get v = (s.side x).tables.ctl.get v := by
  rw [State.readBankWord_eq]
  split
  · simp
  · dsimp only
    split
    · rw [(State.raisePoison_spec _ x tb.num).1]
      simp [PerTable.get_set, h]
    · simp [PerTable.get_set, h]

theorem State.readBankWords_ctl_other {tb v : TableId} (h : v ≠ tb) (x : Side) (p : PhysBank) (js : List Nat) (s : State) :
    ((State.readBankWords x tb p js s).2.side x).tables.ctl.get v = (s.side x).tables.ctl.get v := by
  induction js generalizing s with
  | nil => rfl
  | cons j js ih => exact (ih _).trans (State.readBankWord_ctl_other h s x p j)

theorem State.copyTable_ctl_other {tb v : TableId} (h : v ≠ tb) (s : State) (x : Side) :
    ((s.copyTable x tb).2.side x).tables.ctl.get v = (s.side x).tables.ctl.get v := by
  by_cases hb : ((s.side x).tables.ctl.get tb).bad ((s.side x).tables.ctl.get tb).active = none
  · rw [State.copyTable_read hb]
    exact State.readBankWords_ctl_other h _ _ _ _
  · rw [State.copyTable_poisoned hb]

/-- A poisoned active bank gives the ROM default (R164). -/
theorem State.copyTables_poisoned (x : Side) (tbs : List TableId) (hn : tbs.Nodup) (acc : PerTable (List Word)) (s : State)
    (tb : TableId) (hb : ((s.side x).tables.ctl.get tb).bad ((s.side x).tables.ctl.get tb).active ≠ none) :
    (State.copyTables x tbs acc s).1.get tb = if tb ∈ tbs then romTable x tb else acc.get tb := by
  induction tbs generalizing acc s with
  | nil => simp [State.copyTables]
  | cons v tbs ih =>
    obtain ⟨hv, hrest⟩ := List.nodup_cons.mp hn
    rw [State.copyTables]
    by_cases h : tb = v
    · subst h
      rw [State.copyTable_poisoned hb, ih hrest _ _ hb]
      simp [hv]
    · have hctl := State.copyTable_ctl_other h s x
      rw [ih hrest _ _ (by rw [hctl]; exact hb), PerTable.get_set]
      simp [h]

/-! ## In the words of R53 and R164 -/

/-- A bank that fails is one whose first uncorrectable word is found (R156). -/
theorem State.bankFails_iff (s : State) (x : Side) (tb : TableId) (j : Nat) :
    s.BankFails x tb ((s.side x).tables.ctl.get tb).active j ↔ s.failedBank x tb = some j := by
  unfold State.BankFails State.failedBank State.firstLost
  split
  · next h =>
    rw [List.find?_range_eq_some]
    simp [h, Option.isSome_iff_ne_none, and_left_comm]
  · next h => simp [h]

/-- A bank without an uncorrectable word gives its words (R53, R163). -/
theorem State.copyOf_words {tb : TableId} {ws : List Word}
    (hb : ((s.side x).tables.ctl.get tb).bad ((s.side x).tables.ctl.get tb).active = none) (hlen : ws.length = tb.words)
    (hws : ∀ j w, ws[j]? = some w → s.dataAt (tableAddr x tb ((s.side x).tables.ctl.get tb).active j) = some w) :
    s.failedBank x tb = none ∧ s.copyOf x tb = ws := by
  have data : ∀ j (hj : j < tb.words), s.dataAt (tableAddr x tb ((s.side x).tables.ctl.get tb).active j) = some ws[j] :=
    fun j hj => hws j _ (List.getElem?_eq_getElem (hlen ▸ hj))
  have hf : s.failedBank x tb = none := by
    rw [State.failedBank, if_pos hb, State.firstLost, List.find?_eq_none]
    intro j hj
    simp [data j (List.mem_range.mp hj)]
  refine ⟨hf, ?_⟩
  rw [State.copyOf, if_pos ⟨hb, hf⟩, State.wordsRead]
  refine List.ext_getElem (by simp [hlen]) fun j h1 h2 => ?_
  rw [List.getElem_map, List.getElem_range, data j (by simpa using h1)]
  rfl

theorem State.copyOf_failed {tb : TableId} {j : Nat} (h : s.failedBank x tb = some j) : s.copyOf x tb = romTable x tb := by
  rw [State.copyOf, if_neg fun g => by rw [h] at g; cases g.2]

end Sys2Proof.Machine
end

section
/-! The table store's part of a frame start: the commit, the list with its edits, the working copies and TABLE_POISONED (R53, R57, R157,
R161 to R164, R169). -/

namespace Sys2Proof.Machine

variable {s t u : State} {x : Side}

/-! ## A list stored without error (R155, R169) -/

theorem checkWord_encodeWord (d : Word) : checkWord 5 (encodeWord 22 d) = .clean := by
  simp [checkWord, syndrome_encodeWord]

/-- The two words of an entry read back as the entry (R213). -/
theorem entryOfWords_wordsOfEntry {e : DefectEntry} (hr : e.row < 65536) (hc : e.col < 2048) :
    entryOfWords (wordOf e.row) (wordOf (e.col + 16384 * e.cls.toNat)) = e := by
  have hcls : e.cls.toNat < 4 := e.cls.isLt
  have hcode : e.cls = (wordOf (e.col + 16384 * e.cls.toNat)).extractLsb' 14 2 := by
    refine BitVec.eq_of_toNat_eq ?_
    simp only [wordOf, BitVec.extractLsb'_toNat, BitVec.toNat_ofNat, Nat.shiftRight_eq_div_pow]
    omega
  rw [entryOfWords_eq, ← hcode]
  obtain ⟨row, col, cls⟩ := e
  simp only [wordOf, BitVec.toNat_ofNat, DefectEntry.mk.injEq, and_true] at *
  omega

/-- The reads of a list that is stored without error deliver it. -/
theorem State.StoresList.entryAt {es : List DefectEntry} (h : s.StoresList x es) {i : Nat} {e : DefectEntry} (hi : es[i]? = some e) :
    s.entryAt x i = some e := by
  obtain ⟨hinj, -, hwords⟩ := h
  obtain ⟨hr, hc, h0, h1⟩ := hwords i e hi
  have data : ∀ a, s.dataAt a = delivered 5 16 (Mem.read tableDefault s.tableStore.mem a) := fun a => by
    rw [State.dataAt, State.bitsAt, hinj]
  have entry := entryOfWords_wordsOfEntry hr hc
  rw [entryOfWords_eq] at entry
  rw [State.entryAt, data, data, h0, h1, delivered_encodeWord, delivered_encodeWord]
  exact congrArg some entry

theorem State.StoresList.entriesRead {es : List DefectEntry} (h : s.StoresList x es) : s.entriesRead x = es := by
  have key : ∀ n, n ≤ es.length → (List.range n).filterMap (s.entryAt x) = es.take n := fun n => by
    induction n with
    | zero => intro _; rfl
    | succ n ih =>
      intro hn
      rw [List.range_succ, List.filterMap_append, ih (Nat.le_of_succ_le hn), List.take_add_one]
      have hs := h.entryAt (List.getElem?_eq_getElem (show n < es.length from hn))
      simp [hs, List.getElem?_eq_getElem (show n < es.length from hn)]
  rw [State.entriesRead, h.2.1, key es.length (Nat.le_refl _), List.take_length]

theorem State.StoresList.quiet {es : List DefectEntry} (h : s.StoresList x es) : s.NoCountTrigger := by
  intro i n hi; rw [h.1] at hi; cases hi

/-- A run of reads of entries stored without error changes nothing. -/
theorem State.StoresList.readEntries {es : List DefectEntry} (h : s.StoresList x es) (is : List Nat) (hi : ∀ i ∈ is, i < es.length) :
    (State.readEntries x is s).2 = s := by
  induction is with
  | nil => rfl
  | cons i is ih =>
    have hlt := hi i List.mem_cons_self
    obtain ⟨-, -, h0, h1⟩ := h.2.2 i es[i] (List.getElem?_eq_getElem hlt)
    have read : ∀ a d, Mem.read tableDefault s.tableStore.mem a = encodeWord 22 d → s.readTableWord x a = (some d, s) := fun a d ha => by
      rw [State.readTableWord_clean s x a h.1 (by rw [ha]; exact checkWord_encodeWord d), ha, dataOf_encodeWord]
    have entry : ∃ e, s.readEntry x i = (some e, s) := by
      simp only [State.readEntry, read _ _ h0, read _ _ h1]
      exact ⟨_, rfl⟩
    obtain ⟨e, entry⟩ := entry
    simp only [State.readEntries, entry]
    exact ih fun k hk => hi k (List.mem_cons_of_mem _ hk)

/-! ## The list with the pending edits -/

theorem State.ReadRun.onSide {A : Nat → Prop} (h : s.ReadRun t x A) (y : Side) (f : SideState → SideState) :
    s.ReadRun (t.onSide y f) x A :=
  ⟨h.quiet, h.share, h.stored, h.bits, h.poisoned⟩

/-- What the edits leave of a list in the pool, where its reads deliver it (R57, R169). -/
theorem State.applyPendingEdits_reads (hq : s.NoCountTrigger) (x : Side) (new : List DefectEntry) (lost : Bool)
    (hnew : new = applyEdits (s.entriesRead x) (s.side x).dev.edits)
    (hlost : lost = decide ((s.entriesRead x).length < (s.side x).tables.defectCount)) :
    (s.applyPendingEdits x).1 = new ∧
      ((s.applyPendingEdits x).2.side x).tables = { (s.side x).tables.withLoss lost with defectCount := new.length } ∧
      (lost = true → ((s.applyPendingEdits x).2.faults.get (.side .tablePoisoned x)).state ≠ .clear) ∧
      (lost = false → (s.applyPendingEdits x).2.faults.get (.side .tablePoisoned x) = s.faults.get (.side .tablePoisoned x)) ∧
      ((lost = true ∨ (s.side x).dev.edits ≠ []) → (s.applyPendingEdits x).2.HoldsEntries x new) ∧
      ∀ y, s.ReadRun (s.applyPendingEdits x).2 y
        (PoolWords x s.tableStore.leftShare (List.range (max (s.side x).tables.defectCount new.length))) := by
  obtain ⟨hfst, htab, hset, hrec, hholds, hrun⟩ := State.readList_reads hq x (s.side x).dev.edits new lost hnew hlost
  rw [State.applyPendingEdits_eq]
  refine ⟨hfst, ?_, hset, hrec, hholds, fun y => ?_⟩
  · rw [State.onSide_side]; exact htab
  · exact (hrun y).onSide x (fun d => { d with dev := { d.dev with edits := [] } })

/-- A list that was stored without error stands with its edits applied (R57, R169). -/
theorem State.applyPendingEdits_stored {es : List DefectEntry} (h : s.StoresList x es) :
    (s.applyPendingEdits x).2.HoldsEntries x (applyEdits es (s.side x).dev.edits) := by
  have hread := h.entriesRead
  by_cases he : (s.side x).dev.edits = []
  · have keeps : (s.applyPendingEdits x).2.tableStore = s.tableStore := by
      rw [State.applyPendingEdits_eq, he]
      have hlen : (State.readEntries x (List.range (s.side x).tables.defectCount) s).1.length =
          (s.side x).tables.defectCount := by
        rw [(State.readEntries_reads x _ List.nodup_range s h.quiet).1]
        exact (congrArg List.length hread).trans h.2.1.symm
      have hst := h.readEntries (List.range (s.side x).tables.defectCount) fun i hi => by
        rw [h.2.1] at hi; exact List.mem_range.mp hi
      simp only [State.readList, hlen, Nat.lt_irrefl, ne_eq, not_true_eq_false, or_self, if_false, hst]
      rfl
    rw [he]
    intro i e hi
    obtain ⟨-, hc, h0, h1⟩ := h.2.2 i e hi
    rw [keeps, Nat.mod_eq_of_lt hc]
    exact ⟨h0, h1⟩
  · exact (State.applyPendingEdits_reads h.quiet x _ _ (by rw [hread]) rfl).2.2.2.2.1 (.inr he)

/-! ## TABLE_POISONED at a frame start (R164) -/

theorem State.checkPoisonAtStart_keeps (h : (s.side x).tables.poisonCond = true ∨ (s.side x).tables.Healed) :
    s.checkPoisonAtStart x = s := by
  unfold State.checkPoisonAtStart
  dsimp only
  cases hc : (s.side x).tables.poisonCond with
  | true => rfl
  | false =>
    obtain ⟨hf, hl⟩ := (SideTables.healed_iff _).mpr (h.resolve_left (by rw [hc]; simp))
    simp [hf, hl]

theorem TableId.num_lt_of_find {P : TableId → Bool} {tb u : TableId} (h : TableId.all.find? P = some tb) (hu : P u = true) :
    tb.num ≤ u.num := by
  have sorted : TableId.all.Pairwise (fun a b => a.num < b.num) := by decide
  obtain ⟨-, pre, post, hall, hpre⟩ := List.find?_eq_some_iff_append.mp h
  have hmem := hall ▸ u.mem_all
  rw [hall] at sorted
  rcases List.mem_append.mp hmem with hm | hm
  · have := hpre u hm
    simp [hu] at this
  · rcases List.mem_cons.mp hm with rfl | hm
    · exact Nat.le_refl _
    · exact Nat.le_of_lt ((List.pairwise_cons.mp (List.pairwise_append.mp sorted).2.1).1 u hm)

/-- A side with a bad active bank or a lost entry that is not reported is reported: the lowest bad table, or 13 (R164). -/
theorem State.checkPoisonAtStart_raises (hc : (s.side x).tables.poisonCond = false) (hh : ¬ (s.side x).tables.Healed) :
    ((s.checkPoisonAtStart x).side x).tables = { (s.side x).tables with poisonCond := true } ∧
      ((s.checkPoisonAtStart x).faults.get (.side .tablePoisoned x)).state ≠ .clear ∧
      (∀ tb, (s.side x).tables.activeBad tb ≠ none → (∀ u, u.num < tb.num → (s.side x).tables.activeBad u = none) →
        ((s.checkPoisonAtStart x).faults.get (.side .tablePoisoned x)).detail = BitVec.ofNat 16 tb.num) ∧
      ((∀ tb, (s.side x).tables.activeBad tb = none) →
        ((s.checkPoisonAtStart x).faults.get (.side .tablePoisoned x)).detail = 13) := by
  have hne : ¬ ((s.side x).tables.firstActiveBad = none ∧ (s.side x).tables.defectLoss = false) :=
    fun h => hh ((SideTables.healed_iff _).mp h)
  cases hf : (s.side x).tables.firstActiveBad with
  | some tb =>
    have heq : s.checkPoisonAtStart x = s.raisePoison x tb.num := by simp [State.checkPoisonAtStart, hc, hf]
    obtain ⟨htab, hset, hdet, -⟩ := s.raisePoison_spec x tb.num
    rw [heq]
    have hbad := List.find?_some hf
    refine ⟨htab, hset, fun u hu hlow => ?_, fun hall => by rw [hall tb] at hbad; cases hbad⟩
    rw [hdet]
    have hle := TableId.num_lt_of_find hf (Option.isSome_iff_ne_none.mpr hu)
    have hge : ¬ tb.num < u.num := fun hlt => by rw [hlow tb hlt] at hbad; cases hbad
    rw [show tb.num = u.num by omega]
    rfl
  | none =>
    have hl : (s.side x).tables.defectLoss = true := by
      rw [hf] at hne
      simpa using hne
    have heq : s.checkPoisonAtStart x = s.raisePoison x 13 := by simp [State.checkPoisonAtStart, hc, hf, hl]
    obtain ⟨htab, hset, hdet, -⟩ := s.raisePoison_spec x 13
    rw [heq]
    refine ⟨htab, hset, fun u hu _ => ?_, fun _ => hdet⟩
    have := List.find?_eq_none.mp hf u u.mem_all
    exact absurd (Option.isSome_iff_ne_none.mpr hu) this

theorem State.checkPoisonAtStart_spec (s : State) (x : Side) :
    { ((s.checkPoisonAtStart x).side x).tables with poisonCond := (s.side x).tables.poisonCond } = (s.side x).tables ∧
      (s.checkPoisonAtStart x).tableStore = s.tableStore ∧
      ((s.side x).tables.poisonCond = true → s.checkPoisonAtStart x = s) := by
  refine ⟨?_, ?_, fun h => State.checkPoisonAtStart_keeps (.inl h)⟩
  · by_cases h : (s.side x).tables.poisonCond = true ∨ (s.side x).tables.Healed
    · rw [State.checkPoisonAtStart_keeps h]
    · obtain ⟨hc, hh⟩ := not_or.mp h
      rw [(State.checkPoisonAtStart_raises (by simpa using hc) hh).1]
  · unfold State.checkPoisonAtStart State.raisePoison
    dsimp only
    split
    · rfl
    · split
      · simp
      · split <;> simp

end Sys2Proof.Machine
end

section
/-! The table store's part of a frame start, in the words of R53, R57, R157, R161 to R164 and R169. -/

namespace Sys2Proof.Machine

variable {s t u : State} {x : Side}

/-! ## The working copies and the check of TABLE_POISONED -/

theorem PerTable.ext_get {α : Type} {p q : PerTable α} (h : ∀ tb, p.get tb = q.get tb) : p = q := by
  cases p
  cases q
  simp only [PerTable.mk.injEq]
  exact ⟨h .tone0, h .tone1, h .tone2, h .tone3, h .profile0, h .profile1, h .profile2, h .profile3, h .ladder, h .glareAtt, h .pan,
    h .layout, h .sensor⟩

/-- The state after the working copies are taken and TABLE_POISONED is checked. -/
def State.copiesChecked (s : State) (x : Side) : State := (s.takeCopies x).checkPoisonAtStart x

/-- What the working copies and the check leave of the tables (R53, R163, R164). -/
theorem State.copiesChecked_reads (hq : s.NoCountTrigger) (x : Side) :
    (∀ tb, (State.copyTables x TableId.all (romTables x) s).1.get tb = s.copyOf x tb) ∧
      (∀ tb, ((s.copiesChecked x).side x).tables.ctl.get tb = ((s.side x).tables.ctl.get tb).failAt (s.failedBank x tb)) ∧
      { ((s.copiesChecked x).side x).tables with
          ctl := (s.side x).tables.ctl, poisonCond := (s.side x).tables.poisonCond } = (s.side x).tables ∧
      (∀ tb, s.failedBank x tb ≠ none → ((s.copiesChecked x).side x).tables.poisonCond = true ∧
        ((s.copiesChecked x).faults.get (.side .tablePoisoned x)).state ≠ .clear) ∧
      ((s.side x).tables.poisonCond = true → ((s.copiesChecked x).side x).tables.poisonCond = true) ∧
      s.ReadRun (s.copiesChecked x) x (· < 2048) := by
  obtain ⟨hcopy, hctl, hframe, -, hset, hkeep, hrun⟩ :=
    State.copyTables_reads x TableId.all TableId.nodup_all (romTables x) s hq
  obtain ⟨w, hw⟩ : ∃ w, w = s.takeCopies x := ⟨_, rfl⟩
  have hwtab : (w.side x).tables = ((State.copyTables x TableId.all (romTables x) s).2.side x).tables := by
    rw [hw, State.takeCopies, State.onSide_side]
  have hwfaults : w.faults = (State.copyTables x TableId.all (romTables x) s).2.faults := by rw [hw]; rfl
  have hwrun : s.ReadRun w x (· < 2048) := by
    rw [hw]; exact (hrun.mono fun a => tablesWords_lt).onSide x _
  rw [← hwtab] at hctl hframe
  obtain ⟨ctab, cstore, ckeep⟩ := w.checkPoisonAtStart_spec x
  rw [State.copiesChecked, ← hw]
  refine ⟨fun tb => by rw [hcopy, if_pos tb.mem_all], fun tb => ?_, ?_, fun tb h => ?_, fun h => ?_, ?_⟩
  · have := congrArg SideTables.ctl ctab
    simp only at this
    rw [this, hctl, if_pos tb.mem_all]
  · have := congrArg (fun d : SideTables =>
      { d with ctl := (s.side x).tables.ctl, poisonCond := (s.side x).tables.poisonCond }) ctab
    exact this.trans hframe
  · obtain ⟨h1, h2⟩ := hset tb tb.mem_all h
    rw [← hwtab] at h1
    rw [ckeep h1, hwfaults]
    exact ⟨h1, h2⟩
  · have hc := hkeep h
    rw [← hwtab] at hc
    rw [ckeep hc, hc]
  · refine hwrun.trans (.of_store hwrun.quiet cstore (fun hp => ?_) fun _ => False) fun a ha => ha.resolve_right id
    by_cases h : (w.side x).tables.poisonCond = true ∨ (w.side x).tables.Healed
    · rw [State.checkPoisonAtStart_keeps h]; exact hp
    · obtain ⟨hc, hh⟩ := not_or.mp h
      exact (State.checkPoisonAtStart_raises (by simpa using hc) hh).2.1

/-- With no bank failing, the working copies leave the tables and TABLE_POISONED as they are. -/
theorem State.takeCopies_clean (hq : s.NoCountTrigger) (hf : ∀ tb, s.failedBank x tb = none) :
    ((s.takeCopies x).side x).tables = (s.side x).tables ∧
      (s.takeCopies x).faults.get (.side .tablePoisoned x) = s.faults.get (.side .tablePoisoned x) := by
  obtain ⟨-, hctl, hframe, hclean, -, -, -⟩ := State.copyTables_reads x TableId.all TableId.nodup_all (romTables x) s hq
  obtain ⟨hcond, hrec⟩ := hclean fun tb _ => hf tb
  refine ⟨?_, hrec⟩
  have ctl : ((State.copyTables x TableId.all (romTables x) s).2.side x).tables.ctl = (s.side x).tables.ctl :=
    PerTable.ext_get fun tb => by rw [hctl, if_pos tb.mem_all, hf tb]; rfl
  rw [State.takeCopies, State.onSide_side]
  have h : ((State.copyTables x TableId.all (romTables x) s).2.side x).tables = (s.side x).tables := by
    rw [← ctl, ← hcond] at hframe
    exact hframe
  exact h

/-! ## The swap and the list -/

theorem State.entriesRead_congr (hs : t.tableStore = s.tableStore)
    (hc : (t.side x).tables.defectCount = (s.side x).tables.defectCount) : t.entriesRead x = s.entriesRead x := by
  unfold State.entriesRead State.entryAt
  rw [hc, hs]
  simp only [State.dataAt_congr hs]

/-- The state after the swap reads as before it, with the same list and edits. -/
theorem State.swapPending_keeps (s : State) (x : Side) :
    (s.swapPending x).entriesRead x = s.entriesRead x ∧
      ((s.swapPending x).side x).dev.edits = (s.side x).dev.edits ∧
      ((s.swapPending x).side x).tables.defectCount = (s.side x).tables.defectCount ∧
      ((s.swapPending x).side x).tables.defectLoss = (s.side x).tables.defectLoss := by
  have htab := State.swapPending_tables s x
  have hcount := congrArg SideTables.defectCount htab
  have hloss := congrArg SideTables.defectLoss htab
  have hdev := congrArg SideState.dev (State.swapPending_side s x)
  simp only at hcount hloss hdev
  exact ⟨State.entriesRead_congr (State.swapPending_tableStore s x) hcount, by rw [hdev], hcount, hloss⟩

/-- The swap leaves the poison of the banks (R162). -/
theorem State.swapPending_bad (s : State) (x : Side) (tb : TableId) (p : PhysBank) :
    (((s.swapPending x).side x).tables.ctl.get tb).bad p = ((s.side x).tables.ctl.get tb).bad p := by
  rw [State.swapPending_ctl]
  split
  · cases p <;> rfl
  · rfl

theorem State.readEntry_sides (s : State) (x : Side) (i : Nat) : (s.readEntry x i).2.sides = s.sides := by
  rw [State.readEntry_snd, (State.readTableWord_delivers _ x _).2.2, (State.readTableWord_delivers _ x _).2.2]

theorem State.readEntries_ctl (x : Side) (is : List Nat) (s : State) :
    ((State.readEntries x is s).2.side x).tables.ctl = (s.side x).tables.ctl := by
  induction is generalizing s with
  | nil => rfl
  | cons i is ih =>
    have hside : (s.readEntry x i).2.side x = s.side x := by rw [State.side, State.side, s.readEntry_sides x i]
    unfold State.readEntries
    dsimp only
    split
    · rw [ih, hside]
    · rw [ih]
      unfold State.loseEntry
      rw [(State.raisePoison_spec _ x 13).1, State.onSide_side, hside]

/-- A read of a list leaves the control records, whatever trigger is armed. -/
theorem State.readList_ctl (s : State) (x : Side) (edits : List DefectEdit) :
    ((s.readList x edits).2.side x).tables.ctl = (s.side x).tables.ctl := by
  have h := State.readEntries_ctl x (List.range (s.side x).tables.defectCount) s
  unfold State.readList
  dsimp only
  split
  · rw [State.writeList, State.onSide_side]; exact h
  · exact h

/-- The list of a frame start and what it leaves (R57, R169). -/
theorem State.takeList_reads (hq : s.NoCountTrigger) (x : Side) (new : List DefectEntry) (lost : Bool)
    (hnew : new = applyEdits (s.entriesRead x) (s.side x).dev.edits)
    (hlost : lost = decide ((s.entriesRead x).length < (s.side x).tables.defectCount)) :
    (s.takeList x).1 = new ∧
      ((s.takeList x).2.side x).tables = { ((s.swapPending x).side x).tables.withLoss lost with defectCount := new.length } ∧
      (lost = true → ((s.takeList x).2.faults.get (.side .tablePoisoned x)).state ≠ .clear) ∧
      (lost = false →
        (s.takeList x).2.faults.get (.side .tablePoisoned x) = (s.swapPending x).faults.get (.side .tablePoisoned x)) ∧
      ((lost = true ∨ (s.side x).dev.edits ≠ []) → (s.takeList x).2.HoldsEntries x new) ∧
      (s.takeList x).2.NoCountTrigger ∧ (s.takeList x).2.tableStore.leftShare = s.tableStore.leftShare ∧
      ∀ a, a < 2048 → (s.takeList x).2.dataAt a = s.dataAt a := by
  obtain ⟨hread, hedits, hcount, hloss⟩ := State.swapPending_keeps s x
  have hstore := State.swapPending_tableStore s x
  obtain ⟨hfst, htab, hset, hrec, hholds, hrun⟩ := State.applyPendingEdits_reads (hq.congr hstore) x new lost
    (by rw [hread, hedits, hnew]) (by rw [hread, hcount, hlost])
  rw [hedits] at hholds
  refine ⟨hfst, htab, hset, hrec, hholds, (hrun x).quiet, ((hrun x).share).trans (by rw [hstore]), fun a ha => ?_⟩
  refine ((hrun x).data fun h => ?_).trans (State.dataAt_congr hstore a)
  have := poolWords_ge h
  omega

/-! ## The table store's part of a frame start -/

theorem State.takeTables_checked (s : State) (x : Side) : (s.takeTables x).2 = (s.takeList x).2.copiesChecked x := rfl

/-- The role flags, shadow states and commit after a frame start (R161, R162). -/
theorem State.takeTables_swap (s : State) (x : Side) :
    (∀ tb, (((s.takeTables x).2.side x).tables.ctl.get tb).active = (((s.swapPending x).side x).tables.ctl.get tb).active ∧
      (((s.takeTables x).2.side x).tables.ctl.get tb).shadow = (((s.swapPending x).side x).tables.ctl.get tb).shadow) ∧
      ((s.takeTables x).2.side x).tables.commit = none ∧
      ∀ l, ((s.takeTables x).2.link l).replies = s.repliesSwapped [x] l := by
  have h1 := State.readList_frame (s.swapPending x) x ((s.swapPending x).side x).dev.edits
  have h2 := State.copyTables_frame x TableId.all (romTables x) (s.takeList x).2
  have h3 := State.checkPoisonAtStart_frame ((s.takeList x).2.takeCopies x) x
  have htab1 : ((s.takeList x).2.side x).tables =
      (((s.swapPending x).readList x ((s.swapPending x).side x).dev.edits).2.side x).tables := by
    rw [State.takeList, State.applyPendingEdits_eq, State.onSide_side]
  have htab2 : (((s.takeList x).2.takeCopies x).side x).tables =
      ((State.copyTables x TableId.all (romTables x) (s.takeList x).2).2.side x).tables := by
    rw [State.takeCopies, State.onSide_side]
  rw [State.takeTables_checked, State.copiesChecked]
  refine ⟨fun tb => ⟨?_, ?_⟩, ?_, fun l => ?_⟩
  · rw [h3.active, htab2, h2.active, htab1, h1.active]
  · rw [h3.shadow, htab2, h2.shadow, htab1, h1.shadow]
  · rw [h3.commit, htab2, h2.commit, htab1, h1.commit, State.swapPending_commit]
  · rw [h3.link_replies l]
    exact (h2.link_replies l).trans ((State.applyPendingEdits_replies _ x l).trans (State.swapPending_replies s x l))

/-- The list of a frame start is taken as R57 and R169 say. -/
theorem State.takeTables_takesEdits (hq : s.NoCountTrigger) (x : Side) : s.TakesEdits (s.takeTables x).2 x := by
  intro read new lost hread hnew hlost
  subst hread
  obtain ⟨-, htab, hset, -, hholds, hquiet, -, -⟩ := State.takeList_reads hq x new lost hnew hlost
  obtain ⟨-, -, hframe, -, hkeep, hrun⟩ := State.copiesChecked_reads hquiet x
  obtain ⟨-, -, -, hloss⟩ := State.swapPending_keeps s x
  rw [← State.takeTables_checked] at hframe hkeep hrun
  have hcount := congrArg SideTables.defectCount hframe
  have hlost' := congrArg SideTables.defectLoss hframe
  have hdev := congrArg SideState.dev (State.takeTables_side s x)
  simp only at hcount hlost' hdev
  refine ⟨by rw [hdev], by rw [hcount, htab], fun h i e hi => ?_, ?_, fun h => ⟨hkeep ?_, hrun.poisoned (hset h)⟩⟩
  · obtain ⟨h0, h1⟩ := hholds h i e hi
    rw [hrun.share, hrun.stored _ (by have := poolAddr_ge x (s.takeList x).2.tableStore.leftShare i; omega),
      hrun.stored _ (by have := poolAddr_ge x (s.takeList x).2.tableStore.leftShare i; omega)]
    exact ⟨h0, h1⟩
  · rw [hlost', htab, ← hloss]; rfl
  · rw [htab, h]; simp [SideTables.withLoss]

/-- A list that was stored without error stands with its edits after a frame start, and is the list of the frame (R57, R169). -/
theorem State.takeTables_stored {es new : List DefectEntry} (h : s.StoresList x es) (hnew : new = applyEdits es (s.side x).dev.edits) :
    (s.takeTables x).1 = new ∧ ((s.takeTables x).2.side x).tables.defectCount = new.length ∧
      ∀ i e, new[i]? = some e →
        Mem.read tableDefault (s.takeTables x).2.tableStore.mem (poolAddr x s.tableStore.leftShare i) =
          encodeWord 22 (BitVec.ofNat 16 e.row) ∧
        Mem.read tableDefault (s.takeTables x).2.tableStore.mem (poolAddr x s.tableStore.leftShare i + 1) =
          encodeWord 22 (BitVec.ofNat 16 (e.col % 2048 + 16384 * e.cls.toNat)) := by
  obtain ⟨-, hedits, hcount, -⟩ := State.swapPending_keeps s x
  have hstore := State.swapPending_tableStore s x
  have hs1 : (s.swapPending x).StoresList x es := by
    unfold State.StoresList State.HoldsList
    rw [hstore, hcount]
    exact h
  have hread := h.entriesRead
  obtain ⟨hfst, -, -, -, -, hquiet, hshare, -⟩ := State.takeList_reads h.quiet x new _ (by rw [hread, hnew]) rfl
  obtain ⟨-, hc, -⟩ := State.takeTables_takesEdits h.quiet x (s.entriesRead x) new _ rfl (by rw [hread, hnew]) rfl
  obtain ⟨-, -, -, -, -, hrun⟩ := State.copiesChecked_reads hquiet x
  rw [← State.takeTables_checked] at hrun
  have holds := State.applyPendingEdits_stored hs1
  rw [hedits, ← hnew] at holds
  refine ⟨hfst, hc, fun i e hi => ?_⟩
  obtain ⟨h0, h1⟩ := holds i e hi
  have share : ((s.swapPending x).applyPendingEdits x).2.tableStore.leftShare = s.tableStore.leftShare := hshare
  rw [share] at h0 h1
  have ge := poolAddr_ge x s.tableStore.leftShare i
  rw [hrun.stored _ (by omega), hrun.stored _ (by omega)]
  exact ⟨h0, h1⟩

/-- The working copies of a frame start (R53, R157, R163, R164). -/
theorem State.takeTables_copies (s : State) (x : Side) (tb : TableId) (p : PhysBank)
    (hp : p = (((s.takeTables x).2.side x).tables.ctl.get tb).active) :
    (((s.side x).tables.ctl.get tb).bad p ≠ none → (s.copiesTaken x).get tb = romTable x tb) ∧
      (s.NoCountTrigger →
        (((s.side x).tables.ctl.get tb).bad p = none → ∀ ws : List Word, ws.length = tb.words →
          (∀ j w, ws[j]? = some w → s.dataAt (tableAddr x tb p j) = some w) →
          (s.copiesTaken x).get tb = ws ∧ (((s.takeTables x).2.side x).tables.ctl.get tb).bad p = none) ∧
        (∀ j, s.BankFails x tb p j → (s.copiesTaken x).get tb = romTable x tb ∧
          (((s.takeTables x).2.side x).tables.ctl.get tb).bad p = some j ∧
          ((s.takeTables x).2.side x).tables.poisonCond = true ∧
          ((s.takeTables x).2.faults.get (.side .tablePoisoned x)).state ≠ .clear)) := by
  have hlist := State.readList_frame (s.swapPending x) x ((s.swapPending x).side x).dev.edits
  have hactive : p = (((s.takeList x).2.side x).tables.ctl.get tb).active := by
    rw [hp, ((State.takeTables_swap s x).1 tb).1, State.takeList, State.applyPendingEdits_eq, State.onSide_side]
    exact (hlist.active tb).symm
  have hbad : (((s.takeList x).2.side x).tables.ctl.get tb).bad p = ((s.side x).tables.ctl.get tb).bad p := by
    refine Eq.trans ?_ (State.swapPending_bad s x tb p)
    have := State.readList_ctl (s.swapPending x) x ((s.swapPending x).side x).dev.edits
    rw [State.takeList, State.applyPendingEdits_eq, State.onSide_side]
    exact congrArg (fun c : PerTable TableCtl => (c.get tb).bad p) this
  refine ⟨fun hb => ?_, fun hq => ?_⟩
  · rw [State.copiesTaken, State.copyTables_poisoned x _ TableId.nodup_all _ _ tb (by rw [← hactive, hbad]; exact hb),
      if_pos tb.mem_all]
  · obtain ⟨-, -, -, -, -, hquiet, -, hdata⟩ := State.takeList_reads hq x _ _ rfl rfl
    obtain ⟨hcopy, hctl, -, hset, -, -⟩ := State.copiesChecked_reads hquiet x
    rw [← State.takeTables_checked] at hctl hset
    refine ⟨fun hb ws hlen hws => ?_, fun j hj => ?_⟩
    · obtain ⟨hf, hc⟩ := State.copyOf_words (s := (s.takeList x).2) (x := x) (tb := tb) (ws := ws)
        (by rw [← hactive, hbad, hb]) hlen fun j w hw => by
          have hlt : j < tb.words := hlen ▸ (List.getElem?_eq_some_iff.mp hw).1
          rw [← hactive, hdata _ (tableAddr_lt x tb p j hlt)]
          exact hws j w hw
      refine ⟨(hcopy tb).trans hc, ?_⟩
      rw [hctl, hf]
      exact hbad.trans hb
    · have hfails : (s.takeList x).2.BankFails x tb (((s.takeList x).2.side x).tables.ctl.get tb).active j := by
        obtain ⟨hb, hlt, hnone, hsome⟩ := hj
        rw [← hactive]
        refine ⟨hbad.trans hb, hlt, ?_, fun i hi => ?_⟩
        · rw [hdata _ (tableAddr_lt x tb p j hlt)]; exact hnone
        · rw [hdata _ (tableAddr_lt x tb p i (Nat.lt_trans hi hlt))]; exact hsome i hi
      have hf := (State.bankFails_iff _ x tb j).mp hfails
      obtain ⟨h1, h2⟩ := hset tb (by rw [hf]; simp)
      refine ⟨(hcopy tb).trans (State.copyOf_failed hf), ?_, h1, h2⟩
      rw [hctl, hf, TableCtl.failAt, ← hactive]
      exact TableCtl.poisonAt_bad_of_none j (hbad.trans hj.1)

/-- TABLE_POISONED at a frame start whose reads find no uncorrectable word (R162, R164). -/
theorem State.takeTables_poison (hq : s.NoCountTrigger) (hlen : (s.entriesRead x).length = (s.side x).tables.defectCount)
    (hfails : ∀ tb j, ¬ s.BankFails x tb (((s.takeTables x).2.side x).tables.ctl.get tb).active j) :
    ((s.side x).tables.commit ≠ none → (s.side x).tables.poisonCond = true → s.SwapEndsPoison (s.takeTables x).2 x) ∧
      ((s.side x).tables.commit = none → (s.side x).tables.poisonCond = true → s.KeepsPoison (s.takeTables x).2 x) ∧
      ((s.side x).tables.poisonCond = false → ((s.takeTables x).2.side x).tables.Healed → s.KeepsPoison (s.takeTables x).2 x) ∧
      ((s.side x).tables.poisonCond = false → ¬ ((s.takeTables x).2.side x).tables.Healed →
        ((s.takeTables x).2.side x).tables.poisonCond = true ∧
        ((s.takeTables x).2.faults.get (.side .tablePoisoned x)).state ≠ .clear ∧
        (∀ tb, ((s.takeTables x).2.side x).tables.activeBad tb ≠ none →
          (∀ u, u.num < tb.num → ((s.takeTables x).2.side x).tables.activeBad u = none) →
          ((s.takeTables x).2.faults.get (.side .tablePoisoned x)).detail = BitVec.ofNat 16 tb.num) ∧
        ((∀ tb, ((s.takeTables x).2.side x).tables.activeBad tb = none) →
          ((s.takeTables x).2.faults.get (.side .tablePoisoned x)).detail = 13)) := by
  obtain ⟨-, htab, -, hrec, -, hquiet, -, hdata⟩ := State.takeList_reads hq x _ _ rfl rfl
  have hlost : decide ((s.entriesRead x).length < (s.side x).tables.defectCount) = false := by simp [hlen]
  rw [hlost] at htab
  have hrec := hrec hlost
  have hctl : ((s.takeList x).2.side x).tables.ctl = ((s.swapPending x).side x).tables.ctl := by
    rw [htab]; rfl
  have hnone : ∀ tb, (s.takeList x).2.failedBank x tb = none := fun tb => by
    by_contra h
    obtain ⟨j, hj⟩ := Option.ne_none_iff_exists'.mp h
    obtain ⟨hb, hlt, h0, h1⟩ := (State.bankFails_iff _ x tb j).mpr hj
    rw [hctl, ← ((State.takeTables_swap s x).1 tb).1] at hb h0 h1
    rw [State.swapPending_bad] at hb
    refine hfails tb j ⟨hb, hlt, ?_, fun i hi => ?_⟩
    · rw [← hdata _ (tableAddr_lt x tb _ j hlt)]; exact h0
    · rw [← hdata _ (tableAddr_lt x tb _ i (Nat.lt_trans hi hlt))]; exact h1 i hi
  obtain ⟨ctab, crec⟩ := State.takeCopies_clean hquiet hnone
  obtain ⟨w, hw⟩ : ∃ w, w = (s.takeList x).2.takeCopies x := ⟨_, rfl⟩
  rw [← hw, htab] at ctab
  rw [← hw, hrec] at crec
  have ht : (s.takeTables x).2 = w.checkPoisonAtStart x := by rw [hw]; rfl
  have hcond : (w.side x).tables.poisonCond = ((s.swapPending x).side x).tables.poisonCond := by
    rw [ctab]; simp [SideTables.withLoss]
  have hwheal : (w.side x).tables.Healed ↔ ((s.swapPending x).side x).tables.Healed := by
    rw [ctab]; simp [SideTables.withLoss, SideTables.Healed]
  have hheal : ((s.takeTables x).2.side x).tables.Healed ↔ (w.side x).tables.Healed := by
    obtain ⟨h, -, -⟩ := w.checkPoisonAtStart_spec x
    rw [← ht] at h
    have hc := congrArg SideTables.ctl h
    have hl := congrArg SideTables.defectLoss h
    simp only at hc hl
    rw [SideTables.Healed, SideTables.Healed, hc, hl]
  have hbad : ∀ tb, ((s.takeTables x).2.side x).tables.activeBad tb = (w.side x).tables.activeBad tb := fun tb => by
    obtain ⟨h, -, -⟩ := w.checkPoisonAtStart_spec x
    rw [← ht] at h
    have hc := congrArg SideTables.ctl h
    simp only at hc
    rw [SideTables.activeBad, SideTables.activeBad, hc]
  have kept : (w.side x).tables.poisonCond = true ∨ (w.side x).tables.Healed → (s.takeTables x).2 = w := fun h => by
    rw [ht, State.checkPoisonAtStart_keeps h]
  have swap : s.SwapEndsPoison (s.swapPending x) x ∨ s.swapPending x = s := by
    cases h : (s.side x).tables.commit with
    | none => exact .inr (State.swapPending_none h)
    | some c => exact .inl (State.swapPending_some h ▸ State.swapSet_endsPoison s x c)
  have unset : (s.side x).tables.poisonCond = false → s.KeepsPoison (s.swapPending x) x := fun h => by
    rcases swap with hs | hs
    · exact hs.2 fun g => by rw [h] at g; cases g.1
    · rw [hs]; exact ⟨rfl, rfl⟩
  refine ⟨fun hc hp => ?_, fun hc hp => ?_, fun hp hh => ?_, fun hp hh => ?_⟩
  · have hs : s.SwapEndsPoison (s.swapPending x) x := by
      obtain ⟨c, hc⟩ := Option.ne_none_iff_exists'.mp hc
      exact State.swapPending_some hc ▸ State.swapSet_endsPoison s x c
    have same : (s.takeTables x).2 = w := kept (by
      rw [hcond, hwheal]
      by_cases h : ((s.swapPending x).side x).tables.Healed
      · exact .inr h
      · exact .inl ((hs.2 fun g => h g.2).1.trans hp))
    unfold State.SwapEndsPoison State.KeepsPoison at hs ⊢
    rw [same, hwheal, hcond, crec]
    exact hs
  · have hs := State.swapPending_none hc
    rw [hs] at hcond crec
    rw [kept (.inl (hcond.trans hp))]
    exact ⟨hcond, crec⟩
  · obtain ⟨h1, h2⟩ := unset hp
    rw [kept (.inr (hheal.mp hh))]
    exact ⟨hcond.trans h1, crec.trans h2⟩
  · obtain ⟨htab, hset, hlow, hnone⟩ := State.checkPoisonAtStart_raises ((hcond.trans (unset hp).1).trans hp) fun g => hh (hheal.mpr g)
    simp only [hbad]
    rw [ht]
    exact ⟨by rw [htab], hset, hlow, hnone⟩

end Sys2Proof.Machine
end

section
/-! The blocks of a side at a frame start: exposure unit, framing unit, slot and developer (R29 to R33, R45, R54, R77, R86, R100 to R103,
R110). -/

namespace Sys2Proof.Machine

variable {s t u : State} {x : Side}

/-! ## The exposure unit (R29 to R33, R45) -/

theorem Exposure.switchBank_bank (e : Exposure) : e.switchBank.bank = e.scheduled.getD e.bank ∧ e.switchBank.scheduled = none := by
  unfold Exposure.switchBank
  cases h : e.scheduled with
  | some b => exact ⟨rfl, rfl⟩
  | none => exact ⟨rfl, h⟩

/-- The record in force after retirement (R29). -/
def Exposure.retired (e : Exposure) (f : FrameNo) : Option ExpRecord :=
  match (e.pendingQueue.filter (fun q => decide (q.target = f) || later f q.target)).getLast? with
  | some q => some q.record
  | none => e.inForce

/-- The exposure unit as the match finds it (R29, R45). -/
theorem Exposure.switchBank_retire (e : Exposure) (f : FrameNo) :
    e.switchBank.retire f = { e with
      bank := e.scheduled.getD e.bank, scheduled := none, inForce := e.retired f,
      pendingQueue := e.pendingQueue.filter (fun q => !(decide (q.target = f) || later f q.target) && !later q.target (f + 3)) } := by
  have hdue : PendingEntry.due f = fun q => decide (q.target = f) || later f q.target := rfl
  have hfilter : (fun p : PendingEntry => !(p.due f || p.farAhead f)) =
      fun q => !(decide (q.target = f) || later f q.target) && !later q.target (f + 3) := by
    funext q; simp [PendingEntry.due, PendingEntry.farAhead]
  unfold Exposure.switchBank Exposure.retire Exposure.retired
  rw [hfilter, hdue]
  rcases e with ⟨_, _, _, _, _, _, _, _ | b, _, _, _⟩ <;> rfl

/-- The exposure unit takes a frame start as R29 to R33 and R45 say; `matchFrame` and the report together. -/
theorem Exposure.matched_startsFrame (e : Exposure) (p : Profile) (n : Sensor) (f : FrameNo) (iEmb code : Nat)
    (m : MatchResult × Exposure) (hm : m = (e.switchBank.retire f).matchFrame (limitsOf p n) iEmb code) :
    e.StartsFrame { m.2 with mismatchCond := m.2.mismatchAfter m.1 } p n f iEmb code (decide (m.1 ≠ .mismatched)) := by
  refine ⟨e.retired f, min (32 * code) (32 * n.gainMax), max 1 (min iEmb (min p.imax n.imaxHw)), rfl, rfl, rfl, ?_⟩
  have hgain : min (code * 32) (limitsOf p n).aMax = min (32 * code) (32 * n.gainMax) := by
    simp only [limitsOf]; omega
  have himax : (limitsOf p n).imaxEff = min p.imax n.imaxHw := rfl
  have hdmax : (limitsOf p n).dMax = p.dMax := rfl
  rw [Exposure.switchBank_retire] at hm
  simp only [Exposure.matchFrame, seededRecord, rebuiltRecord, hgain, himax, hdmax] at hm
  cases hr : e.retired f with
  | none =>
    rw [hr] at hm
    subst hm
    refine ⟨rfl, rfl, rfl, fun _ => ⟨rfl, rfl, rfl, rfl⟩, fun r h => by (cases h), fun r d h => by (cases h), rfl⟩
  | some r =>
    rw [hr] at hm
    by_cases hg : iEmb = r.integ ∧ min (32 * code) (32 * n.gainMax) = r.analog ∧ iEmb ≤ min p.imax n.imaxHw
    · simp only [if_pos hg] at hm
      subst hm
      refine ⟨rfl, rfl, rfl, fun h => by (cases h), fun q h _ _ _ => ⟨rfl, rfl, rfl, h⟩, fun q d h hn => ?_, rfl⟩
      cases h
      exact absurd hg hn
    · simp only [if_neg hg] at hm
      subst hm
      refine ⟨rfl, rfl, rfl, fun h => by (cases h), fun q h h1 h2 h3 => ?_, fun q d h _ hd => ?_, rfl⟩
      · cases h
        exact absurd ⟨h1, h2, h3⟩ hg
      · cases h
        subst hd
        exact ⟨rfl, rfl, rfl, rfl⟩

/-- A match leaves a record in force (R30, R31). -/
theorem Exposure.matchFrame_inForce (e : Exposure) (l : Limits) (iEmb code : Nat) :
    (e.matchFrame l iEmb code).2.inForce.isSome = true := by
  unfold Exposure.matchFrame
  cases h : e.inForce with
  | none => rfl
  | some r =>
    dsimp only
    split
    · rfl
    · rfl

/-- What is reported of a match (R32). -/
theorem State.reportMatch_fault (s : State) (x : Side) (f : FrameNo) (m : MatchResult) :
    (s.reportMatch x f m).faults.get (.side .exposureMismatch x) =
      match m with
      | .seeded => s.faults.get (.side .exposureMismatch x)
      | .matched =>
        if (s.side x).exposure.mismatchCond = true then (s.faults.get (.side .exposureMismatch x)).endedAt s.tick
        else s.faults.get (.side .exposureMismatch x)
      | .mismatched =>
        if 3 ≤ (s.side x).exposure.mismatchCount then (s.faults.get (.side .exposureMismatch x)).setAt s.tick f
        else s.faults.get (.side .exposureMismatch x) := by
  cases m with
  | seeded => rfl
  | matched =>
    simp only [State.reportMatch]
    split <;> simp
  | mismatched =>
    simp only [State.reportMatch]
    split <;> simp

/-! ## The framing unit (R100, R102, R103) -/

theorem panOffset_eq {pan : List Word} {a k r : Nat} (ha : a = 25 * k + r) (hr : r < 25) :
    (18 ≤ k → panOffset pan a = numAt pan 18) ∧
      (k < 18 → numAt pan k ≤ numAt pan (k + 1) →
        panOffset pan a = numAt pan k + (numAt pan (k + 1) - numAt pan k) * r / 25) := by
  have hk : a / 25 = k := by omega
  have hr : a - 25 * k = r := by omega
  unfold panOffset
  simp only [hk, hr]
  refine ⟨fun h => if_pos h, fun h hle => ?_⟩
  rw [if_neg (by omega)]
  obtain ⟨d, hd⟩ := Nat.exists_eq_add_of_le hle
  have step : ((numAt pan (k + 1) : Int) - (numAt pan k : Int)) * r / 25 = ((d * r / 25 : Nat) : Int) := by
    rw [hd]; push_cast; congr 2; omega
  rw [step, hd, Nat.add_sub_cancel_left]
  omega

/-- The pan target of R100. -/
theorem panTargetOf_spec (x : Side) (art : Articulation) (pan : List Word) :
    ((art.stale = true ∨ art.angle = 0 ∨ (x = .left ∧ 0 < art.angle) ∨ (x = .right ∧ art.angle < 0)) → panTargetOf x art pan = 0) ∧
      (∀ k r, art.stale = false → (x = .right ∧ 0 < art.angle) ∨ (x = .left ∧ art.angle < 0) →
        art.angle.natAbs = 25 * k + r → r < 25 →
        (18 ≤ k → panTargetOf x art pan = numAt pan 18) ∧
        (k < 18 → numAt pan k ≤ numAt pan (k + 1) →
          panTargetOf x art pan = numAt pan k + (numAt pan (k + 1) - numAt pan k) * r / 25)) := by
  refine ⟨fun h => ?_, fun k r hs hx ha hr => ?_⟩
  · unfold panTargetOf
    cases hs : art.stale with
    | true => rfl
    | false =>
      rcases h with h | h | ⟨rfl, h⟩ | ⟨rfl, h⟩
      · rw [hs] at h; cases h
      · cases x <;> simp [h]
      · simp [show ¬ art.angle < 0 by omega]
      · simp [show ¬ 0 < art.angle by omega]
  · have target : panTargetOf x art pan = panOffset pan art.angle.natAbs := by
      rcases hx with ⟨rfl, h⟩ | ⟨rfl, h⟩
      · simp [panTargetOf, hs, h, show art.angle.toNat = art.angle.natAbs by omega]
      · simp [panTargetOf, hs, h]
    rw [target]
    exact panOffset_eq ha hr

theorem panStep_eq (cur target rate : Nat) :
    panStep cur target rate = if cur < target then min target (cur + rate) else max target (cur - rate) := by
  unfold panStep
  split
  · rfl
  · split
    · rfl
    · omega

theorem Framing.frameStart_starts (f : Framing) (x : Side) (art : Articulation) (l : Layout) (pan : List Word) :
    f.StartsFrame (f.frameStart x art l pan) x art l pan := by
  obtain ⟨hzero, htarget⟩ := panTargetOf_spec x art pan
  refine ⟨rfl, rfl, hzero, htarget, panStep_eq _ _ _, _, rfl, rfl, rfl, rfl, fun raw lo hi hraw hlo hhi => ?_,
    fun raw lo hi hraw hlo hhi => ?_⟩
  · subst hraw hlo hhi
    exact ⟨rfl, rfl⟩
  · subst hraw hlo hhi
    exact ⟨rfl, rfl⟩

/-! ## The slot (R77, R110) -/

/-- The lowest slot in a state. -/
theorem Slots.find_eq_some (p : Slots) (st : SlotState) (n : SlotNo) :
    p.find st = some n ↔ (p.get n).state = st ∧ ∀ m, m.num < n.num → (p.get m).state ≠ st := by
  have all : (∀ m : SlotNo, m.num < n.num → (p.get m).state ≠ st) ↔
      ∀ m ∈ SlotNo.all, m.num < n.num → (p.get m).state ≠ st :=
    ⟨fun h m _ => h m, fun h m => h m (by cases m <;> decide)⟩
  rw [all]
  unfold Slots.find
  by_cases h0 : (p.get .s0).state = st
  · cases n <;> simp [SlotNo.all, SlotNo.num, h0]
  · by_cases h1 : (p.get .s1).state = st
    · cases n <;> simp [SlotNo.all, SlotNo.num, h0, h1]
    · by_cases h2 : (p.get .s2).state = st <;> cases n <;> simp [SlotNo.all, SlotNo.num, h0, h1, h2]

theorem SideState.fillSlot_spec (d : SideState) (g : Geometry) (f : FrameNo) (arrival : Tick) (serial : Nat) :
    (d.fillSlot g f arrival serial).1 = d.store.slots.find .free ∧
      ∀ n, (d.fillSlot g f arrival serial).2.store.slots.get n =
        if d.store.slots.find .free = some n then
          { state := .filling, damaged := false,
            content := some { geometry := g, source := { frame := f, arrival := arrival }, link := serial } }
        else d.store.slots.get n := by
  unfold SideState.fillSlot
  cases h : d.store.slots.find .free with
  | none => exact ⟨rfl, fun n => by simp⟩
  | some k => exact ⟨rfl, fun n => by simp only [Slots.get_set, Option.some.injEq, eq_comm]⟩

end Sys2Proof.Machine
end

section
/-! The second good status line: the frame start as a whole (R3, R6). -/

namespace Sys2Proof.Machine

variable {s t u : State} {x : Side}

/-! ## The side when development begins -/

/-- The windows that a developer takes (R58, R103). -/
def Framing.windowsTaken (f : Framing) : Window × Window :=
  match f.windows with
  | some w => (w.main, w.wide)
  | none => ({ x := 0, y := 0, w := 0, h := 0 }, { x := 0, y := 0, w := 0, h := 0 })

/-- What the developer takes of a frame start (R54, R58). -/
def SideState.inputsOf (d : SideState) (list : List DefectEntry) : FrameInputs :=
  { exposure := d.exposure.inForce.getD { total := 0, integ := 0, analog := 0, digital := 0 }, bank := d.exposure.bank,
    tempClass := d.port.tempClass, defects := activeDefects d.port.tempClass list, attenuations := d.glare.handed.getD [],
    main := d.framing.windowsTaken.1, wide := d.framing.windowsTaken.2, slot := d.store.slots.find .free }

theorem SideState.beginDevelopment_takes (d : SideState) (e : Embedded) (list : List DefectEntry) (now : Tick) (serial : Nat) :
    (d.beginDevelopment e list now serial).dev =
        { d.dev with
          frame := some e.number, geometry := some d.comp.mode.geometry, zones := zeroZones, recent := [],
          inputs := some (d.inputsOf list) } ∧
      (d.beginDevelopment e list now serial).store.slots = (d.fillSlot d.comp.mode.geometry e.number now serial).2.store.slots := by
  unfold SideState.beginDevelopment SideState.inputsOf SideState.fillSlot SideState.onNewest Framing.windowsTaken
  dsimp only
  cases d.store.slots.find .free <;> cases d.framing.windows <;> cases d.history <;> exact ⟨rfl, rfl⟩

/-! ## The stages of the frame start -/

/-- The state with the frame opened and SENSOR_HOT checked (R6, R8, R12, R13). -/
def State.frameOpened (s : State) (x : Side) (e : Embedded) : State :=
  (s.onSide x (fun d => d.openFrame e s.tick)).checkHot x (clamp e.temp (-40) 150)

theorem State.frameOpened_side (s : State) (x : Side) (e : Embedded) :
    (s.frameOpened x e).side x =
      { (s.side x).openFrame e s.tick with
        port := { ((s.side x).openFrame e s.tick).port with
          hotCond := if 105 ≤ clamp e.temp (-40) 150 then true else if clamp e.temp (-40) 150 < 102 then false
            else (s.side x).port.hotCond } } := by
  rw [State.frameOpened, State.checkHot_side, State.onSide_side]
  rfl

theorem State.frameOpened_within (s : State) (x : Side) (e : Embedded) : s.Within (s.frameOpened x e) x [.side .sensorHot x] :=
  (State.Within.onSide s x _ _).trans (State.checkHot_within _ x _)

@[simp] theorem State.frameOpened_tableStore (s : State) (x : Side) (e : Embedded) :
    (s.frameOpened x e).tableStore = s.tableStore := by
  rw [State.frameOpened, State.checkHot_tableStore, State.onSide_tableStore]

/-- The state with the tables taken (R53, R57, R161 to R164, R169). -/
def State.frameLoaded (s : State) (x : Side) (e : Embedded) : State := ((s.frameOpened x e).takeTables x).2

/-- Of its side the state with the tables taken has the frame opened, no edits pending and the working copies taken. -/
theorem State.frameLoaded_side (s : State) (x : Side) (e : Embedded) :
    { (s.frameLoaded x e).side x with tables := (s.side x).tables } =
      { (s.frameOpened x e).side x with
        dev := { (s.side x).dev with edits := [], copies := some ((s.frameOpened x e).copiesTaken x) } } := by
  have h := State.takeTables_side (s.frameOpened x e) x
  have htab : ((s.frameOpened x e).side x).tables = (s.side x).tables := by rw [State.frameOpened_side]; rfl
  have hdev : ((s.frameOpened x e).side x).dev = (s.side x).dev := by rw [State.frameOpened_side]; rfl
  rw [htab, hdev] at h
  exact h

/-- What the exposure unit finds is told from the working copies and its own state. -/
theorem State.matchFound_congr {e : Embedded} (he : (t.side x).exposure = (s.side x).exposure)
    (hd : (t.side x).dev.copies = (s.side x).dev.copies) : t.matchFound x e = s.matchFound x e := by
  unfold State.matchFound State.profileOf State.sensorOf State.copies
  rw [he, hd]

/-- The side after the frame start, block by block. -/
theorem State.frameStart_side (s : State) (x : Side) (e : Embedded) (c : State) (hc : c = s.frameLoaded x e)
    (m : MatchResult × Exposure) (hm : m = c.matchFound x e) (list : List DefectEntry)
    (hlist : list = ((s.frameOpened x e).takeTables x).1) :
    ((s.frameStart x e).side x).port = (c.side x).port ∧
      ((s.frameStart x e).side x).tables = (c.side x).tables ∧
      ((s.frameStart x e).side x).exposure = { m.2 with mismatchCond := m.2.mismatchAfter m.1 } ∧
      ((s.frameStart x e).side x).framing =
        (c.side x).framing.frameStart x c.artic (readLayout (c.copies x).layout) (c.copies x).pan ∧
      ((s.frameStart x e).side x).glare =
        { (c.side x).glare with handed := some (handedSet (c.copies x).glareAtt (c.side x).glare.zones) } ∧
      ((s.frameStart x e).side x).history = (c.side x).history.modifyHead (fun r =>
        { r with
          exposure := m.2.inForce.getD r.exposure, matched := decide (m.1 ≠ .mismatched), bank := m.2.bank,
          slot := (c.side x).store.slots.find .free }) ∧
      ((s.frameStart x e).side x).dev =
        { (c.side x).dev with
          frame := some e.number, geometry := some (c.side x).comp.mode.geometry, zones := zeroZones, recent := [],
          inputs := some
            { exposure := m.2.inForce.getD { total := 0, integ := 0, analog := 0, digital := 0 }, bank := m.2.bank,
              tempClass := (c.side x).port.tempClass, defects := activeDefects (c.side x).port.tempClass list,
              attenuations := handedSet (c.copies x).glareAtt (c.side x).glare.zones,
              main := ((s.frameStart x e).side x).framing.windowsTaken.1,
              wide := ((s.frameStart x e).side x).framing.windowsTaken.2,
              slot := (c.side x).store.slots.find .free } } ∧
      ∀ n, ((s.frameStart x e).side x).store.slots.get n =
        if (c.side x).store.slots.find .free = some n then
          { state := .filling, damaged := false,
            content := some { geometry := (c.side x).comp.mode.geometry, source := { frame := e.number, arrival := s.tick },
                              link := (s.side x).nextSerial } }
        else (c.side x).store.slots.get n := by
  obtain ⟨w, hw⟩ : ∃ w, w = c.stepWindows x := ⟨_, rfl⟩
  have hwside : w.side x = { c.side x with
      framing := (c.side x).framing.frameStart x c.artic (readLayout (c.copies x).layout) (c.copies x).pan,
      glare := { (c.side x).glare with handed := some (handedSet (c.copies x).glareAtt (c.side x).glare.zones) } } := by
    rw [hw, State.stepWindows, State.onSide_side]
  have hwm : w.matchFound x e = m := by
    rw [hm]; exact State.matchFound_congr (by rw [hwside]) (by rw [hwside])
  obtain ⟨v, hv⟩ : ∃ v, v = w.matchExposure x e := ⟨_, rfl⟩
  have hvside := State.matchExposure_side w x e
  rw [hwm, ← hv] at hvside
  have htake := SideState.takeMatch_frame (w.side x) m
  have hvtick : v.tick = s.tick := by
    have h := State.frameTaken_within s x e
    have : (s.frameTaken x e).2 = v := by rw [hv, hw, hc]; rfl
    rw [← this]; exact h.tick
  have ht : s.frameStart x e = v.onSide x (fun d => d.beginDevelopment e list s.tick (s.side x).nextSerial) := by
    rw [← hvtick, hv, hw, hc, hlist]; rfl
  rw [ht, State.onSide_side]
  have keeps : ∀ {α : Type} (F : SideState → α), (∀ c h, F { c with exposure := h } = F c) → (∀ c h, F { c with history := h } = F c) →
      F (v.side x) = F (w.side x) := fun F he hh => by
    have h1 : F (v.side x) = F ((w.side x).takeMatch m) := by rw [hvside]; exact he _ _
    have h2 := hh ((w.side x).takeMatch m) (w.side x).history
    have h3 := he { (w.side x).takeMatch m with history := (w.side x).history } (w.side x).exposure
    have h4 := congrArg F htake
    exact h1.trans (h2.symm.trans (h3.symm.trans h4))
  have hport := keeps SideState.port (fun _ _ => rfl) (fun _ _ => rfl)
  have htables := keeps SideState.tables (fun _ _ => rfl) (fun _ _ => rfl)
  have hframing := keeps SideState.framing (fun _ _ => rfl) (fun _ _ => rfl)
  have hglare := keeps SideState.glare (fun _ _ => rfl) (fun _ _ => rfl)
  have hdev := keeps SideState.dev (fun _ _ => rfl) (fun _ _ => rfl)
  have hstore := keeps SideState.store (fun _ _ => rfl) (fun _ _ => rfl)
  have hcomp := keeps SideState.comp (fun _ _ => rfl) (fun _ _ => rfl)
  have hexp : (v.side x).exposure = { m.2 with mismatchCond := m.2.mismatchAfter m.1 } := by rw [hvside]
  have hhist : (v.side x).history = (w.side x).history.modifyHead (fun r =>
      { r with exposure := m.2.inForce.getD r.exposure, matched := decide (m.1 ≠ .mismatched), bank := m.2.bank }) := by
    rw [hvside]
    exact SideState.onNewest_history _ _
  rw [hwside] at hport htables hframing hglare hdev hstore hcomp hhist
  simp only at hport htables hframing hglare hdev hstore hcomp hhist
  have hframe := SideState.beginDevelopment_frame (v.side x) e list s.tick (s.side x).nextSerial
  have bport := congrArg SideState.port hframe
  have btables := congrArg SideState.tables hframe
  have bexp := congrArg SideState.exposure hframe
  have bframing := congrArg SideState.framing hframe
  have bglare := congrArg SideState.glare hframe
  simp only at bport btables bexp bframing bglare
  obtain ⟨bdev, bslots⟩ := SideState.beginDevelopment_takes (v.side x) e list s.tick (s.side x).nextSerial
  obtain ⟨hfind, hfill⟩ := SideState.fillSlot_spec (v.side x) (v.side x).comp.mode.geometry e.number s.tick (s.side x).nextSerial
  refine ⟨bport.trans hport, btables.trans htables, bexp.trans hexp, bframing.trans hframing, bglare.trans hglare, ?_, ?_, fun n => ?_⟩
  · rw [SideState.beginDevelopment_history, hhist, hfind, hstore, List.modifyHead_modifyHead]
    rfl
  · rw [bdev, bframing, SideState.inputsOf, hexp, hport, hglare, hframing, hstore, hcomp, hdev]
    rfl
  · rw [bslots, hfill, hstore, hcomp]

end Sys2Proof.Machine
end

section
/-! The second good status line takes the frame start (R3, R6): the clauses of the obligation from the stages. -/

namespace Sys2Proof.Machine

variable {s t u : State} {x : Side}

/-! ## What is told from the table store and the tables alone -/

theorem State.bankFails_congr (hs : t.tableStore = s.tableStore) (hd : (t.side x).tables = (s.side x).tables) (tb : TableId)
    (p : PhysBank) (j : Nat) : t.BankFails x tb p j ↔ s.BankFails x tb p j := by
  unfold State.BankFails
  rw [hd]
  simp only [State.dataAt_congr hs]

theorem State.storesList_congr (hs : t.tableStore = s.tableStore) (hd : (t.side x).tables = (s.side x).tables) (es : List DefectEntry) :
    t.StoresList x es ↔ s.StoresList x es := by
  unfold State.StoresList State.HoldsList
  rw [hs, hd]

theorem State.KeepsPoison.congr (h : u.KeepsPoison t x) (hd : (u.side x).tables = (s.side x).tables)
    (hf : u.faults.get (.side .tablePoisoned x) = s.faults.get (.side .tablePoisoned x)) : s.KeepsPoison t x := by
  unfold State.KeepsPoison at h ⊢
  rwa [hd, hf] at h

/-- What a list's read takes and leaves is told from the table store, the tables, the edits and TABLE_POISONED. -/
theorem State.TakesEdits.congr {v : State} (h : u.TakesEdits v x) (hs : u.tableStore = s.tableStore)
    (hd : (u.side x).tables = (s.side x).tables) (he : (u.side x).dev.edits = (s.side x).dev.edits) (ts : t.tableStore = v.tableStore)
    (td : (t.side x).tables = (v.side x).tables) (te : (t.side x).dev.edits = (v.side x).dev.edits)
    (tf : t.faults.get (.side .tablePoisoned x) = v.faults.get (.side .tablePoisoned x)) : s.TakesEdits t x := by
  have hread : u.entriesRead x = s.entriesRead x := State.entriesRead_congr hs (by rw [hd])
  unfold State.TakesEdits State.HoldsEntries at h ⊢
  rw [hread, hd, he, ← ts, ← td, ← te, ← tf] at h
  exact h

/-! ## The state after the frame start, against the state with the tables taken -/

theorem State.reportMatch_replies (s : State) (x l : Side) (f : FrameNo) (m : MatchResult) :
    ((s.reportMatch x f m).link l).replies = (s.link l).replies := by
  cases m <;> simp only [State.reportMatch] <;> (try split) <;> simp

theorem State.frameStart_after (s : State) (x : Side) (e : Embedded) (c : State) (hc : c = s.frameLoaded x e)
    (m : MatchResult × Exposure) (hm : m = c.matchFound x e) :
    (s.frameStart x e).tableStore = c.tableStore ∧
      (∀ l, ((s.frameStart x e).link l).replies = (c.link l).replies) ∧
      (∀ i, i ≠ .side .exposureMismatch x → (s.frameStart x e).faults.get i = c.faults.get i) ∧
      (s.frameStart x e).faults.get (.side .exposureMismatch x) =
        match m.1 with
        | .seeded => c.faults.get (.side .exposureMismatch x)
        | .matched =>
          if m.2.mismatchCond = true then (c.faults.get (.side .exposureMismatch x)).endedAt c.tick
          else c.faults.get (.side .exposureMismatch x)
        | .mismatched =>
          if 3 ≤ m.2.mismatchCount then (c.faults.get (.side .exposureMismatch x)).setAt c.tick e.number
          else c.faults.get (.side .exposureMismatch x) := by
  obtain ⟨w, hw⟩ : ∃ w, w = c.stepWindows x := ⟨_, rfl⟩
  have hwm : w.matchFound x e = m := by
    rw [hm, hw]; exact State.matchFound_congr (by simp [State.stepWindows]) (by simp [State.stepWindows])
  have ht : s.frameStart x e = (w.matchExposure x e).onSide x (fun d =>
      d.beginDevelopment e ((s.frameOpened x e).takeTables x).1 (w.matchExposure x e).tick (s.side x).nextSerial) := by
    rw [hw, hc]; rfl
  rw [ht]
  simp only [State.onSide_tableStore, State.onSide_link, State.onSide_faults, State.matchExposure_tableStore]
  refine ⟨by rw [hw]; rfl, fun l => ?_, fun i hi => ?_, ?_⟩
  · rw [State.matchExposure_eq, State.reportMatch_replies, State.onSide_link, hw]
    rfl
  · rw [(State.matchExposure_within w x e).faults i (by simpa using hi), hw]
    rfl
  · rw [State.matchExposure_eq, State.reportMatch_fault, hwm]
    simp only [State.onSide_side, State.onSide_faults, State.onSide_tick, hw]
    rfl

/-! ## The state that counts the status line -/

/-- The port counts the second status line. -/
def SideState.countStatus (d : SideState) (lines : List (List Sample)) : SideState :=
  { d with port := { d.port with lineCount := 2, statusLines := lines } }

theorem State.receiveLine_frameStart {ws l0 : List Sample} (hp : (s.side x).port.phase = .status) (hl : (s.side x).port.lineCount = 1)
    (hk : (s.side x).port.statusLines = [l0]) (hw : ws.length = 1920) :
    s.receiveLine x ws = (s.onSide x (fun d => d.countStatus [l0, ws])).frameStart x (readEmbedded l0) := by
  have hne : ¬ ws.length ≠ 1920 := by simp [hw]
  simp only [State.receiveLine, hp, State.statusLine, if_neg hne, hl, hk]
  rfl

end Sys2Proof.Machine
end

section
/-! The second good status line takes the frame start (R3, R6): the obligation. -/

namespace Sys2Proof.Machine

variable {s t u : State} {x : Side}

/-! ## The blocks after the frame start, from the state before it -/

/-- The record in which a frame is opened (R6, R8, R12). -/
def SideState.openedRecord (d : SideState) (e : Embedded) (now : Tick) : FrameRecord :=
  { serial := d.nextSerial, number := e.number,
    gap := match d.port.fcur with
      | some f => !decide (e.number = f + 1)
      | none => false,
    arrival := now, temp := clamp e.temp (-40) 150, cls := nextClass d.port.tempClass (clamp e.temp (-40) 150),
    exposure := { total := 0, integ := 0, analog := 0, digital := 0 }, matched := false, bank := 0, slot := none,
    metered := none, glare := none, outcome := .pending }

/-- What the exposure unit finds at a frame start of `s` (R29 to R31, R45). -/
def State.frameMatch (s : State) (x : Side) (e : Embedded) : MatchResult × Exposure := (s.frameLoaded x e).matchFound x e

/-- The newest record after a frame start. -/
def State.frameRecord (s : State) (x : Side) (e : Embedded) : FrameRecord :=
  { (s.side x).openedRecord e s.tick with
    exposure := (s.frameMatch x e).2.inForce.getD { total := 0, integ := 0, analog := 0, digital := 0 },
    matched := decide ((s.frameMatch x e).1 ≠ .mismatched), bank := (s.frameMatch x e).2.bank,
    slot := (s.side x).store.slots.find .free }

/-- The blocks of the side with the tables taken, from the state before the frame start. -/
theorem State.frameLoaded_blocks (s : State) (x : Side) (e : Embedded) :
    ((s.frameLoaded x e).side x).port = { (s.side x).port with
        state := .running, phase := .lines, lineCount := 0, statusLines := [], fcur := some e.number, lastStart := s.tick,
        lastTemp := some (clamp e.temp (-40) 150), tempClass := nextClass (s.side x).port.tempClass (clamp e.temp (-40) 150),
        hotCond := if 105 ≤ clamp e.temp (-40) 150 then true else if clamp e.temp (-40) 150 < 102 then false
          else (s.side x).port.hotCond } ∧
      ((s.frameLoaded x e).side x).history = (s.side x).openedRecord e s.tick :: (s.side x).history.take 7 ∧
      ((s.frameLoaded x e).side x).dev =
        { (s.side x).dev with edits := [], copies := some ((s.frameOpened x e).copiesTaken x) } ∧
      ((s.frameLoaded x e).side x).exposure = (s.side x).exposure ∧ ((s.frameLoaded x e).side x).store = (s.side x).store ∧
      ((s.frameLoaded x e).side x).comp = (s.side x).comp ∧ ((s.frameLoaded x e).side x).glare = (s.side x).glare ∧
      ((s.frameLoaded x e).side x).framing = (s.side x).framing := by
  have h := State.frameLoaded_side s x e
  rw [State.frameOpened_side] at h
  have hport := congrArg SideState.port h
  have hhist := congrArg SideState.history h
  have hdev := congrArg SideState.dev h
  have hexp := congrArg SideState.exposure h
  have hstore := congrArg SideState.store h
  have hcomp := congrArg SideState.comp h
  have hglare := congrArg SideState.glare h
  have hframing := congrArg SideState.framing h
  exact ⟨hport, hhist, hdev, hexp, hstore, hcomp, hglare, hframing⟩

/-- The state with the tables taken keeps the time base, the articulation record and what the frame start does not report on. -/
theorem State.frameLoaded_within (s : State) (x : Side) (e : Embedded) :
    s.Within (s.frameLoaded x e) x [.side .sensorHot x, .part .errorCorrected, .side .tablePoisoned x] :=
  ((State.frameOpened_within s x e).mono (by simp)).trans ((State.takeTables_within _ x).mono (by simp [tableRecords]))

/-- SENSOR_HOT after a frame start (R13). -/
theorem State.frameStart_hot (s : State) (x : Side) (e : Embedded) :
    (s.frameStart x e).faults.get (.side .sensorHot x) =
      if 105 ≤ clamp e.temp (-40) 150 ∧ (s.side x).port.hotCond = false then
        (s.faults.get (.side .sensorHot x)).setAt s.tick (wordOfInt (clamp e.temp (-40) 150))
      else if clamp e.temp (-40) 150 < 102 ∧ (s.side x).port.hotCond = true then (s.faults.get (.side .sensorHot x)).endedAt s.tick
      else s.faults.get (.side .sensorHot x) := by
  obtain ⟨-, -, hfaults, -⟩ := State.frameStart_after s x e _ rfl _ rfl
  have hc : (s.frameLoaded x e).faults.get (.side .sensorHot x) = (s.frameOpened x e).faults.get (.side .sensorHot x) :=
    (State.takeTables_within _ x).faults _ (by simp [tableRecords])
  rw [hfaults _ (by simp), hc, State.frameOpened, State.checkHot_fault]
  simp only [State.onSide_side, State.onSide_tick, State.onSide_faults]
  rfl

/-- What the obligation says of the port, of SENSOR_HOT and of the newest record (R6, R8, R12, R13). -/
theorem State.frameStart_port (s : State) (x : Side) (e : Embedded) :
    ((s.frameStart x e).side x).port = ((s.frameLoaded x e).side x).port ∧
      ((s.frameStart x e).side x).history = s.frameRecord x e :: (s.side x).history.take 7 := by
  obtain ⟨hport, -, -, -, -, hhist, -⟩ := State.frameStart_side s x e _ rfl _ rfl _ rfl
  obtain ⟨-, lhist, -, -, lstore, -⟩ := State.frameLoaded_blocks s x e
  refine ⟨hport, ?_⟩
  rw [hhist, lhist, lstore]
  rfl

/-- The working copies after a frame start. -/
theorem State.frameStart_copies (s : State) (x : Side) (e : Embedded) :
    (s.frameStart x e).copies x = (s.frameOpened x e).copiesTaken x ∧
      (s.frameLoaded x e).copies x = (s.frameOpened x e).copiesTaken x := by
  obtain ⟨-, -, -, -, -, -, hdev, -⟩ := State.frameStart_side s x e _ rfl _ rfl _ rfl
  obtain ⟨-, -, ldev, -⟩ := State.frameLoaded_blocks s x e
  unfold State.copies
  rw [hdev, ldev]
  exact ⟨rfl, rfl⟩

/-- The exposure unit after a frame start (R29 to R33, R45). -/
theorem State.frameStart_exposure (s : State) (x : Side) (e : Embedded) :
    (s.side x).exposure.StartsFrame ((s.frameStart x e).side x).exposure
        ((s.frameStart x e).profileOf x (s.frameRecord x e).bank) ((s.frameStart x e).sensorOf x) e.number e.integ e.code
        (s.frameRecord x e).matched ∧
      ((s.frameStart x e).side x).exposure.inForce = some (s.frameRecord x e).exposure ∧
      ((s.frameStart x e).side x).exposure.bank = (s.frameRecord x e).bank := by
  obtain ⟨-, -, hexp, -⟩ := State.frameStart_side s x e _ rfl _ rfl _ rfl
  obtain ⟨-, -, -, lexp, -⟩ := State.frameLoaded_blocks s x e
  obtain ⟨hcopies, lcopies⟩ := State.frameStart_copies s x e
  have hm : s.frameMatch x e = ((s.side x).exposure.switchBank.retire e.number).matchFrame
      (limitsOf ((s.frameLoaded x e).profileOf x (s.side x).exposure.switchBank.bank) ((s.frameLoaded x e).sensorOf x))
      e.integ e.code := by
    rw [State.frameMatch, State.matchFound, lexp]
  have hbank : (s.frameMatch x e).2.bank = (s.side x).exposure.switchBank.bank := by
    have h := congrArg Exposure.bank (Exposure.matchFrame_frame ((s.side x).exposure.switchBank.retire e.number)
      (limitsOf ((s.frameLoaded x e).profileOf x (s.side x).exposure.switchBank.bank) ((s.frameLoaded x e).sensorOf x)) e.integ e.code)
    rw [← hm] at h
    exact h
  have hsome : (s.frameMatch x e).2.inForce.isSome = true := by rw [hm]; exact Exposure.matchFrame_inForce _ _ _ _
  have hprof : (s.frameStart x e).profileOf x (s.frameRecord x e).bank =
      (s.frameLoaded x e).profileOf x (s.side x).exposure.switchBank.bank := by
    rw [State.profileOf, State.profileOf, hcopies, lcopies, State.frameRecord, hbank]
  have hsen : (s.frameStart x e).sensorOf x = (s.frameLoaded x e).sensorOf x := by
    rw [State.sensorOf, State.sensorOf, hcopies, lcopies]
  rw [hprof, hsen, hexp]
  refine ⟨Exposure.matched_startsFrame _ _ _ _ _ _ _ hm, ?_, rfl⟩
  obtain ⟨r, hr⟩ := Option.isSome_iff_exists.mp hsome
  show (s.frameMatch x e).2.inForce = some ((s.frameMatch x e).2.inForce.getD _)
  rw [hr]
  rfl

/-- EXPOSURE_MISMATCH after a frame start (R32). -/
theorem State.frameStart_mismatch (s : State) (x : Side) (e : Embedded) :
    ((s.frameRecord x e).matched = false → 3 ≤ ((s.frameStart x e).side x).exposure.mismatchCount →
        ((s.frameStart x e).faults.get (.side .exposureMismatch x)).state ≠ .clear ∧
        ((s.frameStart x e).faults.get (.side .exposureMismatch x)).detail = e.number) ∧
      ((s.side x).exposure.mismatchCond = true → ((s.frameStart x e).side x).exposure.mismatchCond = false →
        ((s.frameStart x e).faults.get (.side .exposureMismatch x)).state = .clear) ∧
      ((s.side x).exposure.mismatchCond = ((s.frameStart x e).side x).exposure.mismatchCond →
        ((s.frameRecord x e).matched = true ∨ ((s.frameStart x e).side x).exposure.mismatchCount < 3) →
        (s.frameStart x e).faults.get (.side .exposureMismatch x) = s.faults.get (.side .exposureMismatch x)) := by
  obtain ⟨-, -, hexp, -⟩ := State.frameStart_side s x e _ rfl (s.frameMatch x e) rfl _ rfl
  obtain ⟨-, -, -, lexp, -⟩ := State.frameLoaded_blocks s x e
  obtain ⟨-, -, -, hfault⟩ := State.frameStart_after s x e _ rfl (s.frameMatch x e) rfl
  rw [(State.frameLoaded_within s x e).faults _ (by simp)] at hfault
  have hcond : (s.frameMatch x e).2.mismatchCond = (s.side x).exposure.mismatchCond := by
    have h := congrArg Exposure.mismatchCond (Exposure.matchFrame_frame ((s.side x).exposure.switchBank.retire e.number)
      (limitsOf ((s.frameLoaded x e).profileOf x (s.side x).exposure.switchBank.bank) ((s.frameLoaded x e).sensorOf x)) e.integ e.code)
    rw [Exposure.switchBank_retire] at h
    rw [State.frameMatch, State.matchFound, lexp, Exposure.switchBank_retire]
    exact h
  have hrec : (s.frameRecord x e).matched = decide ((s.frameMatch x e).1 ≠ .mismatched) := rfl
  rw [hrec, hexp, hfault]
  show (_ → 3 ≤ (s.frameMatch x e).2.mismatchCount → _) ∧
    (_ → (s.frameMatch x e).2.mismatchAfter (s.frameMatch x e).1 = false → _) ∧
    (_ = (s.frameMatch x e).2.mismatchAfter (s.frameMatch x e).1 → (_ ∨ (s.frameMatch x e).2.mismatchCount < 3) → _)
  cases (s.frameMatch x e).1 with
  | seeded =>
    simp only [Exposure.mismatchAfter, hcond]
    exact ⟨fun h => by simp at h, fun h g => by (rw [h] at g; cases g), fun _ _ => trivial⟩
  | matched =>
    simp only [Exposure.mismatchAfter, hcond]
    refine ⟨fun h => by simp at h, fun h _ => ?_, fun h _ => ?_⟩
    · rw [if_pos h]; exact FaultRecord.endedAt_state _ _
    · rw [if_neg (by rw [h]; simp)]
  | mismatched =>
    simp only [Exposure.mismatchAfter, hcond]
    refine ⟨fun _ h => ?_, fun h g => ?_, fun _ h => ?_⟩
    · rw [if_pos h]; exact ⟨FaultRecord.setAt_state _ _ _, FaultRecord.setAt_detail _ _ _⟩
    · rw [h] at g; cases g
    · exact if_neg (Nat.not_le.mpr (h.resolve_left (by simp)))

end Sys2Proof.Machine
end

section
/-! The second good status line takes the frame start (R3, R6): the tables, and the obligation. -/

namespace Sys2Proof.Machine

variable {s t u b : State} {x : Side}

/-! ## The tables (R53, R57, R157, R161 to R164, R169) -/

/-- Two states of a side whose tables, edits, TABLE_POISONED and replies are the same, over the same table store. -/
structure State.SameTables (s t : State) (x : Side) : Prop where
  store : t.tableStore = s.tableStore
  tables : (t.side x).tables = (s.side x).tables
  edits : (t.side x).dev.edits = (s.side x).dev.edits
  record : t.faults.get (.side .tablePoisoned x) = s.faults.get (.side .tablePoisoned x)
  replies : ∀ l, (t.link l).replies = (s.link l).replies

theorem State.frameOpened_sameTables (s : State) (x : Side) (e : Embedded) : s.SameTables (s.frameOpened x e) x where
  store := State.frameOpened_tableStore s x e
  tables := by rw [State.frameOpened_side]; rfl
  edits := by rw [State.frameOpened_side]; rfl
  record := (State.frameOpened_within s x e).faults _ (by simp)
  replies l := by rw [State.frameOpened, State.checkHot_links_replies, State.onSide_link]

theorem State.frameStart_sameTables (s : State) (x : Side) (e : Embedded) : (s.frameLoaded x e).SameTables (s.frameStart x e) x := by
  obtain ⟨hstore, hreplies, hfaults, -⟩ := State.frameStart_after s x e _ rfl _ rfl
  obtain ⟨-, htables, -, -, -, -, hdev, -⟩ := State.frameStart_side s x e _ rfl _ rfl _ rfl
  exact ⟨hstore, htables, by rw [hdev], hfaults _ (by simp), hreplies⟩

/-- The swap at a frame start and its reply (R161, R162). -/
theorem State.SameTables.swap (h : s.SameTables b x) (k : (b.takeTables x).2.SameTables t x) :
    (∀ tb, ((t.side x).tables.ctl.get tb).active =
        (if ((s.side x).tables.commit.map (fun c => c.tables.getLsbD tb.num)) = some true
          then ((s.side x).tables.ctl.get tb).active.other else ((s.side x).tables.ctl.get tb).active) ∧
      ((t.side x).tables.ctl.get tb).shadow =
        (if ((s.side x).tables.commit.map (fun c => c.tables.getLsbD tb.num)) = some true then ShadowState.stale
          else ((s.side x).tables.ctl.get tb).shadow)) ∧
      (t.side x).tables.commit = none ∧
      ∀ l, ((s.side x).tables.commit.bind PendingCommit.link ≠ some l → (t.link l).replies = (s.link l).replies) ∧
        (∀ c, (s.side x).tables.commit = some c → c.link = some l →
          (t.link l).replies = (s.link l).replies.map (ReplyEntry.fill x [setWord c.tables])) := by
  obtain ⟨hctl, hcommit, hreplies⟩ := State.takeTables_swap b x
  rw [k.tables]
  refine ⟨fun tb => ?_, hcommit, fun l => ?_⟩
  · rw [(hctl tb).1, (hctl tb).2, State.swapPending_ctl, h.tables]
    split <;> exact ⟨rfl, rfl⟩
  · have hl : (t.link l).replies = ((b.swapPending x).link l).replies := by
      rw [k.replies, hreplies, State.swapPending_replies]
    rw [hl, ← h.replies, ← h.tables]
    cases hc : (b.side x).tables.commit with
    | none =>
      rw [State.swapPending_none hc]
      exact ⟨fun _ => rfl, fun c g => by cases g⟩
    | some c =>
      rw [State.swapPending_some hc, State.swapSet_replies]
      refine ⟨fun hne => if_neg hne, fun c' g hl => ?_⟩
      cases g
      exact if_pos hl

/-- The list at a frame start (R57, R169). -/
theorem State.SameTables.list (h : s.SameTables b x) (k : (b.takeTables x).2.SameTables t x) :
    (∀ es new : List DefectEntry, s.StoresList x es → new = applyEdits es (s.side x).dev.edits →
      (b.takeTables x).1 = new ∧ (t.side x).tables.defectCount = new.length ∧
      ∀ i e, new[i]? = some e →
        Mem.read tableDefault t.tableStore.mem (poolAddr x s.tableStore.leftShare i) = encodeWord 22 (BitVec.ofNat 16 e.row) ∧
        Mem.read tableDefault t.tableStore.mem (poolAddr x s.tableStore.leftShare i + 1) =
          encodeWord 22 (BitVec.ofNat 16 (e.col % 2048 + 16384 * e.cls.toNat))) ∧
      (s.NoCountTrigger → s.TakesEdits t x) ∧
      (s.NoCountTrigger → (b.takeTables x).1 = applyEdits (s.entriesRead x) (s.side x).dev.edits) := by
  have hread : b.entriesRead x = s.entriesRead x := State.entriesRead_congr h.store (by rw [h.tables])
  refine ⟨fun es new hes hnew => ?_, fun hq => ?_, fun hq => ?_⟩
  · rw [k.tables, k.store, ← h.store]
    exact State.takeTables_stored ((State.storesList_congr h.store h.tables es).mpr hes) (by rw [h.edits]; exact hnew)
  · exact (State.takeTables_takesEdits (hq.congr h.store) x).congr h.store h.tables h.edits k.store k.tables k.edits k.record
  · rw [← hread, ← h.edits]
    exact (State.takeList_reads (hq.congr h.store) x _ _ rfl rfl).1

/-- The working copies of a frame start (R53, R157, R163, R164). -/
theorem State.SameTables.copies (h : s.SameTables b x) (k : (b.takeTables x).2.SameTables t x) (tb : TableId) (p : PhysBank)
    (hp : p = ((t.side x).tables.ctl.get tb).active) :
    (((s.side x).tables.ctl.get tb).bad p ≠ none → (b.copiesTaken x).get tb = romTable x tb) ∧
      (s.NoCountTrigger →
        (((s.side x).tables.ctl.get tb).bad p = none → ∀ ws : List Word, ws.length = tb.words →
          (∀ j w, ws[j]? = some w → s.dataAt (tableAddr x tb p j) = some w) →
          (b.copiesTaken x).get tb = ws ∧ ((t.side x).tables.ctl.get tb).bad p = none) ∧
        (∀ j, s.BankFails x tb p j → (b.copiesTaken x).get tb = romTable x tb ∧
          ((t.side x).tables.ctl.get tb).bad p = some j ∧ (t.side x).tables.poisonCond = true ∧
          (t.faults.get (.side .tablePoisoned x)).state ≠ .clear)) := by
  rw [k.tables] at hp
  obtain ⟨h1, h2⟩ := State.takeTables_copies b x tb p hp
  rw [k.tables, k.record, ← h.tables]
  refine ⟨h1, fun hq => ?_⟩
  obtain ⟨h3, h4⟩ := h2 (hq.congr h.store)
  refine ⟨fun hb ws hlen hws => h3 hb ws hlen fun j w hw => ?_, fun j hj => h4 j ((State.bankFails_congr h.store h.tables tb p j).mpr hj)⟩
  rw [State.dataAt_congr h.store]
  exact hws j w hw

/-- TABLE_POISONED at a frame start without an uncorrectable read (R162, R164). -/
theorem State.SameTables.poison (h : s.SameTables b x) (k : (b.takeTables x).2.SameTables t x) (hq : s.NoCountTrigger)
    (hlen : (s.entriesRead x).length = (s.side x).tables.defectCount)
    (hfails : ∀ tb j, ¬ s.BankFails x tb ((t.side x).tables.ctl.get tb).active j) :
    ((s.side x).tables.commit ≠ none → (s.side x).tables.poisonCond = true → s.SwapEndsPoison t x) ∧
      ((s.side x).tables.commit = none → (s.side x).tables.poisonCond = true → s.KeepsPoison t x) ∧
      ((s.side x).tables.poisonCond = false → (t.side x).tables.Healed → s.KeepsPoison t x) ∧
      ((s.side x).tables.poisonCond = false → ¬ (t.side x).tables.Healed → (t.side x).tables.poisonCond = true ∧
        (t.faults.get (.side .tablePoisoned x)).state ≠ .clear ∧
        (∀ tb, (t.side x).tables.activeBad tb ≠ none → (∀ u, u.num < tb.num → (t.side x).tables.activeBad u = none) →
          (t.faults.get (.side .tablePoisoned x)).detail = BitVec.ofNat 16 tb.num) ∧
        ((∀ tb, (t.side x).tables.activeBad tb = none) → (t.faults.get (.side .tablePoisoned x)).detail = 13)) := by
  have hread : b.entriesRead x = s.entriesRead x := State.entriesRead_congr h.store (by rw [h.tables])
  have key := State.takeTables_poison (s := b) (x := x) (hq.congr h.store) (by rw [hread, h.tables]; exact hlen) fun tb j g =>
    hfails tb j (by rw [k.tables]; exact (State.bankFails_congr h.store h.tables _ _ _).mp g)
  unfold State.SwapEndsPoison State.KeepsPoison at key ⊢
  rw [← k.tables, ← k.record, h.tables, h.record] at key
  exact key

end Sys2Proof.Machine
end

section
/-! The second good status line takes the frame start: the obligation. -/

namespace Sys2Proof.Machine

variable {s t u b : State} {x : Side}

theorem State.SameTables.trans (h : s.SameTables t x) (k : t.SameTables u x) : s.SameTables u x :=
  ⟨k.store.trans h.store, k.tables.trans h.tables, k.edits.trans h.edits, k.record.trans h.record,
    fun l => (k.replies l).trans (h.replies l)⟩

/-- The count of a status line touches the port alone. -/
theorem State.countStatus_sameTables (s : State) (x : Side) (lines : List (List Sample)) :
    s.SameTables (s.onSide x (fun d => d.countStatus lines)) x := by
  refine ⟨rfl, ?_, ?_, rfl, fun _ => rfl⟩ <;> rw [State.onSide_side] <;> rfl

/-- SENSOR_HOT is set, ended or kept by its limits (R13). -/
theorem State.frameStart_hot_clauses (s : State) (x : Side) (e : Embedded) (T : Int) (hT : T = clamp e.temp (-40) 150) :
    ((105 ≤ T ∧ (s.side x).port.hotCond = false) → ((s.frameStart x e).side x).port.hotCond = true ∧
        ((s.frameStart x e).faults.get (.side .sensorHot x)).state ≠ .clear ∧
        ((s.frameStart x e).faults.get (.side .sensorHot x)).detail = BitVec.ofInt 16 T) ∧
      ((T < 102 ∧ (s.side x).port.hotCond = true) → ((s.frameStart x e).side x).port.hotCond = false ∧
        ((s.frameStart x e).faults.get (.side .sensorHot x)).state = .clear) ∧
      (¬ (105 ≤ T ∧ (s.side x).port.hotCond = false) → ¬ (T < 102 ∧ (s.side x).port.hotCond = true) →
        ((s.frameStart x e).side x).port.hotCond = (s.side x).port.hotCond ∧
        (s.frameStart x e).faults.get (.side .sensorHot x) = s.faults.get (.side .sensorHot x)) := by
  obtain ⟨hport, -⟩ := State.frameStart_port s x e
  obtain ⟨lport, -⟩ := State.frameLoaded_blocks s x e
  rw [hport, lport, State.frameStart_hot, ← hT]
  refine ⟨fun h => ?_, fun h => ?_, fun h g => ?_⟩
  · rw [if_pos h]
    exact ⟨if_pos h.1, FaultRecord.setAt_state _ _ _, FaultRecord.setAt_detail _ _ _⟩
  · have hlow : ¬ 105 ≤ T := by omega
    rw [if_neg (fun g : 105 ≤ T ∧ _ => hlow g.1), if_pos h]
    exact ⟨(if_neg hlow).trans (if_pos h.1), FaultRecord.endedAt_state _ _⟩
  · rw [if_neg h, if_neg g]
    refine ⟨?_, rfl⟩
    cases hc : (s.side x).port.hotCond with
    | false => simp only [hc, and_true] at h; simp [h]
    | true => simp only [hc, and_true] at g; simp [g]

/-- The window that the developer takes is the framing unit's (R58, R103). -/
theorem Framing.StartsFrame.windowsTaken {f g : Framing} {art : Articulation} {l : Layout} {pan : List Word}
    (h : f.StartsFrame g x art l pan) : some g.windowsTaken = g.windows.map (fun w => (w.main, w.wide)) := by
  obtain ⟨-, -, -, -, -, w, hw, -⟩ := h
  rw [Framing.windowsTaken, hw]
  rfl

/-- Settles O16: the stages of `State.frameStart_side` and `State.frameStart_after`, with the table store's part from
`State.SameTables`. -/
theorem secondStatusLineTakesTheFrameStart : Obligations.SecondStatusLineTakesTheFrameStart := by
  intro x ws l0 s hr hp hl hk hw
  obtain ⟨s1, hs1⟩ : ∃ s1, s1 = s.onSide x (fun d => d.countStatus [l0, ws]) := ⟨_, rfl⟩
  obtain ⟨e, he⟩ : ∃ e, e = readEmbedded l0 := ⟨_, rfl⟩
  have hside : s1.side x = (s.side x).countStatus [l0, ws] := by rw [hs1, State.onSide_side]
  obtain ⟨hport, hhist⟩ := State.frameStart_port s1 x e
  obtain ⟨lport, -, ldev, -, lstore, lcomp, lglare, lframing⟩ := State.frameLoaded_blocks s1 x e
  obtain ⟨-, -, -, hframing, hglare, -, hdev, hslots⟩ := State.frameStart_side s1 x e _ rfl (s1.frameMatch x e) rfl _ rfl
  obtain ⟨hcopies, lcopies⟩ := State.frameStart_copies s1 x e
  obtain ⟨hexp, hforce, hbank⟩ := State.frameStart_exposure s1 x e
  obtain ⟨hot1, hot2, hot3⟩ := State.frameStart_hot_clauses s1 x e _ rfl
  obtain ⟨mis1, mis2, mis3⟩ := State.frameStart_mismatch s1 x e
  have within : s.Within (s1.frameStart x e) x (frameStartRecords x) := by
    rw [hs1]; exact (State.Within.onSide s x _ _).trans (State.frameStart_within _ x e)
  have lwithin := State.frameLoaded_within s1 x e
  have before : s.SameTables (s1.frameOpened x e) x := by
    rw [hs1]; exact (State.countStatus_sameTables s x _).trans (State.frameOpened_sameTables _ x e)
  have after := State.frameStart_sameTables s1 x e
  obtain ⟨hctl, hcommit, hreplies⟩ := before.swap after
  obtain ⟨hstored, htakes, hread⟩ := before.list after
  have hfaults : ∀ i, s1.faults.get i = s.faults.get i := fun i => by rw [hs1]; rfl
  have htick : s1.tick = s.tick := by rw [hs1]; rfl
  have hartic : (s1.frameLoaded x e).artic = s.artic := lwithin.artic.trans (by rw [hs1]; rfl)
  have hlayout : (s1.frameStart x e).layoutOf x = readLayout ((s1.frameLoaded x e).copies x).layout := by
    rw [State.layoutOf, hcopies, lcopies]
  have hstarts : (s.side x).framing.StartsFrame ((s1.frameStart x e).side x).framing x s.artic ((s1.frameStart x e).layoutOf x)
      ((s1.frameStart x e).copies x).pan := by
    rw [hframing, lframing, hside, hartic, hlayout, hcopies, ← lcopies]
    exact Framing.frameStart_starts _ _ _ _ _
  have hslot : (s1.frameRecord x e).slot = (s.side x).store.slots.find .free := by rw [State.frameRecord, hside]; rfl
  have hserial : (s1.frameRecord x e).serial = (s.side x).nextSerial := by rw [State.frameRecord, hside]; rfl
  have hgap : (s1.frameRecord x e).gap = (match (s.side x).port.fcur with
      | some f => decide ((s1.frameRecord x e).number ≠ f + 1)
      | none => false) := by
    rw [State.frameRecord, hside]
    show (match (s.side x).port.fcur with
      | some f => !decide (e.number = f + 1)
      | none => false) = _
    cases (s.side x).port.fcur with
    | none => rfl
    | some f => exact (decide_not ..).symm
  have hinputs : ((s1.frameStart x e).side x).dev.inputs = some
      { exposure := (s1.frameRecord x e).exposure, bank := (s1.frameRecord x e).bank, tempClass := (s1.frameRecord x e).cls,
        defects := activeDefects (s1.frameRecord x e).cls ((s1.frameOpened x e).takeTables x).1,
        attenuations := ((s1.frameStart x e).side x).glare.handed.getD [],
        main := ((s1.frameStart x e).side x).framing.windowsTaken.1, wide := ((s1.frameStart x e).side x).framing.windowsTaken.2,
        slot := (s1.frameRecord x e).slot } := by
    rw [hdev, hglare, lport, lstore]
    rfl
  have hatt : ((s1.frameStart x e).side x).glare = { (s.side x).glare with
      handed := some ((s.side x).glare.zones.map (fun z => (((s1.frameStart x e).copies x).glareAtt.getD z.level 0).toInt)) } := by
    rw [hglare, lglare, hcopies, lcopies, hside]
    rfl
  have hthe : ((s1.frameStart x e).side x).port = _ := hport.trans lport
  refine ⟨s1.frameStart x e, s1.frameRecord x e,
    by rw [exec_line, State.take_eq _ _ hr, State.receiveLine_frameStart hp hl hk hw, he, hs1], ?_⟩
  rw [hthe, hside, htick] at hot1 hot2 hot3
  rw [hfaults] at hot3 mis3
  rw [hside] at mis2 mis3
  rw [hthe, hside, htick]
  subst he
  refine ⟨rfl, rfl, rfl, rfl, rfl, rfl, rfl, by rw [hhist, hside]; rfl, rfl, htick, rfl, rfl, rfl, hgap, rfl, ?_, hforce.symm,
    hbank.symm, hcommit, by rw [hdev, ldev], by rw [hdev], by rw [hdev, ldev]; rfl, by rw [hdev], within.other, within.frameStore,
    within.tick, within.artic, within.locks, hot1, hot2, hot3, hctl, fun l => ⟨(hreplies l).1, fun c hc hl => ?_⟩,
    fun es new hes hnew => ?_, htakes, fun hq => ?_, fun tb p hp => ?_, fun hq hlen hf => before.poison after hq hlen hf,
    by rw [hdev, lcomp, hside]; rfl, by rw [hinputs]; rfl, fun n => by rw [hslot]; exact Slots.find_eq_some _ _ _, fun n => ?_, hstarts,
    ?_, hatt, by rw [hinputs, hatt]; rfl, ?_, by rw [hinputs]; rfl, mis1, mis2, mis3⟩
  · rw [State.frameRecord, hside]; rfl
  · rw [(hreplies l).2 c hc hl]
    refine List.map_congr_left fun q _ => ?_
    cases q <;> rfl
  · obtain ⟨hfst, hcount, hwords⟩ := hstored es new hes hnew
    refine ⟨hcount, hwords, ?_⟩
    rw [hinputs, hfst]
    rfl
  · rw [hinputs, hread hq]
    rfl
  · rw [hcopies]
    exact before.copies after tb p hp
  · rw [hslots, hslot, hserial, lstore, lcomp, hside, htick]
    rfl
  · rw [hinputs, ← hstarts.windowsTaken]
    rfl
  · rw [hside] at hexp
    exact hexp

end Sys2Proof.Machine
end

section
/-! RESTART_SIDE (R208): the restart of one side, block by block. -/

namespace Sys2Proof.Machine

variable {s t u : State} {x : Side}

/-! ## The blocks (R14, R22, R51, R78, R94, R108, R116, R123, R151) -/

theorem Slot.freed_spec (a : Slot) : a.freed.state = .free ∧ a.freed.content = none ∧ a.freed.damaged = a.damaged := ⟨rfl, rfl, rfl⟩

/-- A discard keeps the DAMAGED flag of every slot (R110). -/
theorem SideState.discardSlot_damaged (d : SideState) (n : SlotNo) :
    (d.discardSlot.store.slots.get n).damaged = (d.store.slots.get n).damaged := by
  unfold SideState.discardSlot
  split
  · rfl
  · simp only [SideState.freeSlot, Slots.get_set]
    split
    · next h => rw [h]; rfl
    · rfl

/-- The restart of the port touches the port, the history, the developer and the slots; the DAMAGED flags stay (R14, R61, R112). -/
theorem SideState.restartPort_frame (d : SideState) :
    { d.restartPort with port := d.port, history := d.history, dev := d.dev, store := d.store } = d ∧
      d.restartPort.dev.idle = d.dev.idle ∧
      (∀ n, (d.restartPort.store.slots.get n).damaged = (d.store.slots.get n).damaged) ∧
      d.restartPort.port = { d.port with
        state := .searching, phase := .closed, lineCount := 0, statusLines := [], badCount := 0, goodCount := 0, fcur := none,
        frameCond := false, lossCond := false, hotCond := false } := by
  have hslot := SideState.discardSlot_frame d
  have hdev := congrArg SideState.dev hslot
  have hport := congrArg SideState.port hslot
  have hall := congrArg (fun e : SideState => { e with port := d.port, dev := d.dev }) hslot
  simp only at hdev hport
  unfold SideState.restartPort
  split
  · refine ⟨hall, ?_, d.discardSlot_damaged, ?_⟩
    · show d.discardSlot.dev.idle.idle = d.dev.idle
      rw [hdev]; rfl
    · show { d.discardSlot.port with
        state := .searching, phase := .closed, lineCount := 0, statusLines := [], badCount := 0, goodCount := 0, fcur := none,
        frameCond := false, lossCond := false, hotCond := false } = _
      rw [hport]
  · exact ⟨rfl, rfl, fun _ => rfl, rfl⟩

/-- What the restart makes of the blocks of a side, the tables and the pending edits apart: `d` becomes `e`. -/
def SideState.BlocksRestarted (d e : SideState) : Prop :=
  e.port = { d.port with
    state := .searching, phase := .closed, lineCount := 0, statusLines := [], badCount := 0, goodCount := 0, fcur := none,
    frameCond := false, lossCond := false, hotCond := false } ∧
  e.history = [] ∧
  e.exposure = { Exposure.reset with
    mode := d.exposure.mode,
    bank := match d.exposure.mode with
      | .auto => 0
      | .forced b => b } ∧
  e.dev.frame = none ∧ e.dev.edits = [] ∧ e.dev.zones = zeroZones ∧
  e.dev.copies = d.dev.copies ∧
  e.glare = Glare.reset ∧
  e.framing = { d.framing with panTarget := 0, panCur := 0, windows := none } ∧
  (∀ n, (e.store.slots.get n).state = .free ∧ (e.store.slots.get n).content = none ∧
    (e.store.slots.get n).damaged = (d.store.slots.get n).damaged) ∧
  e.store.cleanCount = 0 ∧ e.store.fseCond = false ∧
  e.comp = { d.comp with
    view := .starting, repeatCount := 0, startCount := 0, recovery := 0, staleCond := false, lostCond := false,
    freezeCond := false, silence := 0, lagStrikes := 0, goodChecks := 0,
    content := d.comp.content.map (fun _ => if d.comp.mode = .pattern then Content.colourBars else .viewStarting) } ∧
  (d.bus.state = .idle → e.bus = { d.bus with buffer := [], busCond := false }) ∧
  (d.bus.state = .sending → e.bus = { d.bus with buffer := d.bus.buffer.take 1, busCond := false, finishing := true })

theorem contentAfterRestart_eq (m : OutputMode) :
    contentAfterRestart m = if m = .pattern then Content.colourBars else .viewStarting := by
  cases m <;> rfl

/-- The blocks are restarted, and the tables, with no pending edit, are whatever they are made. -/
theorem SideState.restarted_blocks (d : SideState) (T : SideTables) :
    d.BlocksRestarted { d.restarted with dev := { d.dev.idle with edits := [] }, tables := T } := by
  obtain ⟨hframe, hdev, hdamaged, hport⟩ := d.restartPort_frame
  have hexp := congrArg SideState.exposure hframe
  have hframing := congrArg SideState.framing hframe
  have hcomp := congrArg SideState.comp hframe
  have hbus := congrArg SideState.bus hframe
  simp only at hexp hframing hcomp hbus
  refine ⟨hport, rfl, ?_, rfl, rfl, rfl, rfl, rfl, ?_, fun n => ?_, rfl, rfl, ?_, fun h => ?_, fun h => ?_⟩
  · show d.restartPort.exposure.restarted = _
    rw [hexp]; rfl
  · show d.restartPort.framing.restarted = _
    rw [hframing]; rfl
  · have hn := hdamaged n
    cases n <;> exact ⟨rfl, rfl, hn⟩
  · show d.restartPort.comp.restarted = _
    rw [hcomp, Composer.restarted, contentAfterRestart_eq]
  · show d.restartPort.bus.restarted = _
    simp only [hbus, Bus.restarted, h]
  · show d.restartPort.bus.restarted = _
    simp only [hbus, Bus.restarted, h]

/-- A restart takes the tables as they are, with poison_cond clear. -/
theorem SideState.restarted_tables (d : SideState) (T : SideTables) :
    ({ d with tables := T } : SideState).restarted = { d.restarted with tables := { T with poisonCond := false } } := by
  unfold SideState.restarted SideState.restartPort SideState.discardFrame SideState.discardSlot SideState.freeSlot
  by_cases h : d.port.phase = .lines
  · simp only [h, if_true]
    cases d.store.slots.find .filling <;> rfl
  · simp only [h, if_false]

theorem SideState.restarted_dev (d : SideState) : d.restarted.dev = d.dev.idle := d.restartPort_frame.2.1

theorem SideState.restarted_keptTables (d : SideState) : d.restarted.tables = { d.tables with poisonCond := false } := by
  have h := congrArg SideState.tables (d.restarted_tables d.tables)
  exact h

/-! ## The records (R190) -/

/-- A run of ends of records reports on them alone; each is CLEAR and keeps its detail. -/
theorem State.foldl_endFault (is : List RecordId) (s : State) :
    (is.foldl State.endFault s).sides = s.sides ∧ (is.foldl State.endFault s).tableStore = s.tableStore ∧
      { is.foldl State.endFault s with sides := s.sides, links := s.links, faults := s.faults } = s ∧
      (∀ l, { (is.foldl State.endFault s).link l with notices := (s.link l).notices } = s.link l) ∧
      (∀ i, i ∉ is → (is.foldl State.endFault s).faults.get i = s.faults.get i) ∧
      (∀ i, ((is.foldl State.endFault s).faults.get i).detail = (s.faults.get i).detail) ∧
      ∀ i, (i ∈ is ∨ (s.faults.get i).state = .clear) → ((is.foldl State.endFault s).faults.get i).state = .clear := by
  induction is generalizing s with
  | nil => exact ⟨rfl, rfl, rfl, fun _ => rfl, fun _ _ => rfl, fun _ => rfl, fun i h => h.resolve_left (List.not_mem_nil)⟩
  | cons k is ih =>
    obtain ⟨isides, istore, irest, ilink, iother, idetail, iclear⟩ := ih (s.endFault k)
    have h := State.endFault_reported s k
    have hrest := h.rest
    have hsides := congrArg State.sides hrest
    have hstore := congrArg State.tableStore hrest
    simp only at hsides hstore
    rw [List.foldl_cons]
    refine ⟨isides.trans hsides, istore.trans hstore, ?_, fun l => ?_, fun i hi => ?_, fun i => ?_, fun i hi => iclear i ?_⟩
    · have g := congrArg (fun c : State => { c with sides := s.sides, links := s.links, faults := s.faults }) irest
      have k := congrArg (fun c : State => { c with sides := s.sides }) hrest
      exact g.trans k
    · have g := congrArg (fun c : Link => { c with notices := (s.link l).notices }) (ilink l)
      exact g.trans (h.link l)
    · obtain ⟨hk, hi⟩ := not_or.mp (fun g => hi (List.mem_cons.mpr g))
      rw [iother i hi, h.faults i (by simpa using hk)]
    · rw [idetail, State.endFault_faults, FaultTable.get_set]
      split
      · next e => rw [e, FaultRecord.endedAt_detail]
      · rfl
    · rw [State.endFault_faults, FaultTable.get_set]
      by_cases hk : i = k
      · exact .inr (by rw [if_pos hk]; exact FaultRecord.endedAt_state _ _)
      · rw [if_neg hk]
        exact hi.imp_left fun g => (List.mem_cons.mp g).resolve_left hk

theorem RecordId.mem_ofSide {i : RecordId} : i ∈ RecordId.ofSide x ↔ ∃ c, i = .side c x := by
  have all : ∀ c : SideClass, c ∈ SideClass.all := fun c => by cases c <;> decide
  simp only [RecordId.ofSide, List.mem_map]
  exact ⟨fun ⟨c, _, h⟩ => ⟨c, h.symm⟩, fun ⟨c, h⟩ => ⟨c, all c, h.symm⟩⟩

/-! ## The link port's condition (R193) -/

/-- The fault of a link that is not UP, and has been, is set again with its detail; otherwise the condition is clear (R193). -/
theorem State.linkAtRestart_spec (s : State) (x : Side) :
    (s.linkAtRestart x).sides = s.sides ∧ (s.linkAtRestart x).tableStore = s.tableStore ∧
      { s.linkAtRestart x with sides := s.sides, links := s.links, faults := s.faults } = s ∧
      (∀ l, { (s.linkAtRestart x).link l with notices := (s.link l).notices, linkCond := (s.link l).linkCond } = s.link l) ∧
      ((s.linkAtRestart x).link x.other).linkCond = (s.link x.other).linkCond ∧
      (∀ i, i ≠ .side .displayLinkDown x → (s.linkAtRestart x).faults.get i = s.faults.get i) ∧
      ((s.link x).state = .up → ((s.linkAtRestart x).link x).linkCond = false ∧
        (s.linkAtRestart x).faults.get (.side .displayLinkDown x) = s.faults.get (.side .displayLinkDown x)) ∧
      ((s.link x).state ≠ .up → (s.link x).beenUp = true → ((s.linkAtRestart x).link x).linkCond = true ∧
        (s.linkAtRestart x).faults.get (.side .displayLinkDown x) =
          (s.faults.get (.side .displayLinkDown x)).setAt s.tick (s.faults.get (.side .displayLinkDown x)).detail) := by
  obtain ⟨u, hu⟩ : ∃ u, u = s.onLink x (fun k => { k with linkCond := false }) := ⟨_, rfl⟩
  have hlink : ∀ l, u.link l = if l = x then { s.link x with linkCond := false } else s.link l := fun l => by
    rw [hu, State.link_onLink]
  have hstate : (u.link x).state = (s.link x).state := by rw [hlink, if_pos rfl]
  have hbeen : (u.link x).beenUp = (s.link x).beenUp := by rw [hlink, if_pos rfl]
  have same : { u with sides := s.sides, links := s.links, faults := s.faults } = s := by rw [hu]; rfl
  have keep : ∀ l, { u.link l with notices := (s.link l).notices, linkCond := (s.link l).linkCond } = s.link l := fun l => by
    rw [hlink]
    split
    · next e => rw [e]
    · rfl
  have hother : (u.link x.other).linkCond = (s.link x.other).linkCond := by rw [hlink, if_neg (Side.other_ne x)]
  have hfaults : u.faults = s.faults := by rw [hu]; rfl
  have hsides : u.sides = s.sides := by rw [hu]; rfl
  have hstore : u.tableStore = s.tableStore := by rw [hu]; rfl
  by_cases hset : (s.link x).state ≠ .up ∧ (s.link x).beenUp = true
  · have heq : s.linkAtRestart x =
        (u.onLink x (fun k => { k with linkCond := true })).raise (.side .displayLinkDown x)
          (s.faults.get (.side .displayLinkDown x)).detail := by
      simp [State.linkAtRestart, ← hu, State.isUp, hstate, hset.1, State.setLinkDown, hbeen, hset.2]
    have hr := State.raise_reported (u.onLink x (fun k => { k with linkCond := true })) (.side .displayLinkDown x)
      (s.faults.get (.side .displayLinkDown x)).detail
    rw [heq]
    refine ⟨by simp [hsides], by simp [hstore], ?_, fun l => ?_, ?_, fun i hi => ?_, fun h => absurd h hset.1, fun _ _ => ⟨?_, ?_⟩⟩
    · have g := congrArg (fun c : State => { c with sides := s.sides, links := s.links, faults := s.faults }) hr.rest
      exact g.trans same
    · have g := congrArg (fun c : Link => { c with notices := (s.link l).notices, linkCond := (s.link l).linkCond }) (hr.link l)
      refine g.trans (Eq.trans ?_ (keep l))
      rw [State.link_onLink]
      split
      · next e => rw [e]
      · rfl
    · have g := congrArg Link.linkCond (hr.link x.other)
      exact g.trans (by rw [State.link_onLink, if_neg (Side.other_ne x)]; exact hother)
    · rw [hr.faults i (by simpa using hi), State.onLink_faults, hfaults]
    · have g := congrArg Link.linkCond (hr.link x)
      exact g.trans (by rw [State.onLink_link])
    · rw [State.raise_faults, FaultTable.get_set_self, State.onLink_faults, hfaults, State.onLink_tick, hu]
      rfl
  · have heq : s.linkAtRestart x = u := by
      by_cases hup : (s.link x).state = .up
      · simp [State.linkAtRestart, ← hu, State.isUp, hstate, hup]
      · have hb : (s.link x).beenUp = false := by simpa [hup] using hset
        simp [State.linkAtRestart, ← hu, State.isUp, hstate, hup, State.setLinkDown, hbeen, hb]
    rw [heq]
    exact ⟨hsides, hstore, same, keep, hother, fun i _ => by rw [hfaults],
      fun _ => ⟨by rw [hlink, if_pos rfl], by rw [hfaults]⟩, fun h1 h2 => absurd ⟨h1, h2⟩ hset⟩

end Sys2Proof.Machine
end

section
/-! RESTART_SIDE (R208): the restart of one side as a whole. -/

namespace Sys2Proof.Machine

variable {s t u : State} {x : Side}

/-! ## TABLE_POISONED after the list's read (R169) -/

theorem FaultRecord.setAt_active {r : FaultRecord} (h : r.state ≠ .acked) (now : Tick) (d : Word) :
    (r.setAt now d).state = .active := by
  unfold FaultRecord.setAt
  cases hr : r.state with
  | clear => rfl
  | active => rfl
  | acked => exact absurd hr h

theorem State.loseEntry_record (h : (s.faults.get (.side .tablePoisoned x)).state ≠ .acked) :
    ((s.loseEntry x).faults.get (.side .tablePoisoned x)).state = .active ∧
      ((s.loseEntry x).faults.get (.side .tablePoisoned x)).detail = 13 := by
  unfold State.loseEntry State.raisePoison
  rw [State.raise_faults, FaultTable.get_set_self]
  exact ⟨FaultRecord.setAt_active h _ _, FaultRecord.setAt_detail _ _ _⟩

/-- A run of reads of entries that loses one leaves TABLE_POISONED ACTIVE with detail 13, and one that loses none leaves it (R164, R169). -/
theorem State.readEntries_record (x : Side) (is : List Nat) (s : State)
    (h : (s.faults.get (.side .tablePoisoned x)).state ≠ .acked) :
    ((State.readEntries x is s).1.length = is.length ∧
        (State.readEntries x is s).2.faults.get (.side .tablePoisoned x) = s.faults.get (.side .tablePoisoned x)) ∨
      ((State.readEntries x is s).1.length < is.length ∧
        ((State.readEntries x is s).2.faults.get (.side .tablePoisoned x)).state = .active ∧
        ((State.readEntries x is s).2.faults.get (.side .tablePoisoned x)).detail = 13) := by
  induction is generalizing s with
  | nil => exact .inl ⟨rfl, rfl⟩
  | cons i is ih =>
    have hrec : (s.readEntry x i).2.faults.get (.side .tablePoisoned x) = s.faults.get (.side .tablePoisoned x) := by
      rw [State.readEntry_snd, (State.readTableWord_store _ x x _).2.2, (State.readTableWord_store _ x x _).2.2]
    unfold State.readEntries
    dsimp only
    split
    · rcases ih (s.readEntry x i).2 (by rw [hrec]; exact h) with ⟨hl, hr⟩ | ⟨hl, hs, hd⟩
      · exact .inl ⟨by simp [hl], hr.trans hrec⟩
      · exact .inr ⟨by simpa using hl, hs, hd⟩
    · obtain ⟨hs, hd⟩ := State.loseEntry_record (s := (s.readEntry x i).2) (x := x) (by rw [hrec]; exact h)
      rcases ih ((s.readEntry x i).2.loseEntry x) (by rw [hs]; simp) with ⟨hl, hr⟩ | ⟨hl, hs', hd'⟩
      · exact .inr ⟨by simp [hl], by rw [hr]; exact hs, by rw [hr]; exact hd⟩
      · exact .inr ⟨by simp only [List.length_cons]; omega, hs', hd'⟩

theorem State.writeList_faults (s : State) (x : Side) (es : List DefectEntry) : (s.writeList x es).faults = s.faults := rfl

/-- The record TABLE_POISONED after a list's read with edits that loses an entry. -/
theorem State.applyPendingEdits_lost (hq : s.NoCountTrigger) (h : (s.faults.get (.side .tablePoisoned x)).state = .clear)
    (hlost : (s.entriesRead x).length < (s.side x).tables.defectCount) :
    ((s.applyPendingEdits x).2.faults.get (.side .tablePoisoned x)).state = .active ∧
      ((s.applyPendingEdits x).2.faults.get (.side .tablePoisoned x)).detail = 13 := by
  have hrec := State.readEntries_record x (List.range (s.side x).tables.defectCount) s (by rw [h]; simp)
  have hlen : (State.readEntries x (List.range (s.side x).tables.defectCount) s).1.length = (s.entriesRead x).length := by
    rw [(State.readEntries_reads x _ List.nodup_range s hq).1]; rfl
  rw [hlen, List.length_range] at hrec
  obtain ⟨-, hs, hd⟩ := hrec.resolve_left fun g => by omega
  have hf : (s.applyPendingEdits x).2.faults = (State.readEntries x (List.range (s.side x).tables.defectCount) s).2.faults := by
    rw [State.applyPendingEdits_eq]
    unfold State.readList
    dsimp only
    split
    · rw [State.onSide_faults, State.writeList_faults]
    · rfl
  rw [hf]
  exact ⟨hs, hd⟩

/-! ## The restart -/

/-- The state of a restart before the pending edits and the link port: the swap, the blocks and the records (R162, R190). -/
def State.blocksRestarted (s : State) (x : Side) : State :=
  ((s.swapPending x).onSide x SideState.restarted).clearRecords x

theorem State.restartSide_eq (s : State) (x : Side) : s.restartSide x = ((s.blocksRestarted x).editsAtRestart x).linkAtRestart x := rfl

/-- The tables of a side whose swap is made, with poison_cond clear. -/
def State.tablesSwapped (s : State) (x : Side) : SideTables := { ((s.swapPending x).side x).tables with poisonCond := false }

theorem State.blocksRestarted_side (s : State) (x : Side) :
    (s.blocksRestarted x).side x = { (s.side x).restarted with tables := s.tablesSwapped x } := by
  obtain ⟨hsides, -⟩ := State.foldl_endFault (RecordId.ofSide x) ((s.swapPending x).onSide x SideState.restarted)
  have hswap : (s.swapPending x).side x = { s.side x with tables := ((s.swapPending x).side x).tables } := by
    have h := congrArg (fun d : SideState => { d with tables := ((s.swapPending x).side x).tables }) (State.swapPending_side s x)
    exact h
  rw [State.blocksRestarted, State.clearRecords, State.side, hsides, State.onSide_sides, Sided.get_set_self, hswap,
    SideState.restarted_tables]
  rfl

/-- What the swap, the blocks and the records leave of the state (R162, R190). -/
theorem State.blocksRestarted_frame (s : State) (x : Side) :
    (s.blocksRestarted x).tableStore = s.tableStore ∧
      { s.blocksRestarted x with
        sides := s.sides, links := s.links, faults := s.faults, tableStore := s.tableStore, corrCond := s.corrCond } = s ∧
      (s.blocksRestarted x).side x.other = s.side x.other ∧
      (∀ l, { (s.blocksRestarted x).link l with notices := (s.link l).notices, replies := (s.link l).replies } = s.link l) ∧
      (∀ l, ((s.blocksRestarted x).link l).replies = s.repliesSwapped [x] l) ∧
      (∀ i, (∀ c, i ≠ .side c x) → (s.blocksRestarted x).faults.get i = s.faults.get i) ∧
      (∀ c, ((s.blocksRestarted x).faults.get (.side c x)).state = .clear) ∧
      ∀ c, c ≠ .tablePoisoned →
        ((s.blocksRestarted x).faults.get (.side c x)).detail = (s.faults.get (.side c x)).detail := by
  obtain ⟨hsides, hstore, hrest, hlink, hfaults, hdetail, hclear⟩ :=
    State.foldl_endFault (RecordId.ofSide x) ((s.swapPending x).onSide x SideState.restarted)
  have hw := State.swapPending_within s x
  refine ⟨?_, ?_, ?_, fun l => ?_, fun l => ?_, fun i hi => ?_, fun c => ?_, fun c hc => ?_⟩
  · exact hstore.trans (State.swapPending_tableStore s x)
  · have h := congrArg (fun c : State =>
      { c with sides := s.sides, links := s.links, faults := s.faults, tableStore := s.tableStore, corrCond := s.corrCond }) hrest
    exact h.trans hw.rest
  · rw [State.blocksRestarted, State.clearRecords, State.side, hsides]
    exact (State.onSide_side_other _ x _).trans hw.other
  · have h := congrArg (fun k : Link => { k with notices := (s.link l).notices, replies := (s.link l).replies }) (hlink l)
    exact h.trans (hw.link l)
  · have h := congrArg Link.replies (hlink l)
    exact h.trans (State.swapPending_replies s x l)
  · rw [State.blocksRestarted, State.clearRecords, hfaults i fun g => (RecordId.mem_ofSide.mp g).elim hi, State.onSide_faults]
    exact hw.faults i (by simpa using hi .tablePoisoned)
  · exact hclear _ (.inl (RecordId.mem_ofSide.mpr ⟨c, rfl⟩))
  · rw [State.blocksRestarted, State.clearRecords, hdetail, State.onSide_faults, hw.faults _ (by simpa using hc)]

/-- The addresses that the restart of a side may read and write: its list, before and after the edits (R169). -/
def State.RestartWords (s : State) (x : Side) : Nat → Prop :=
  PoolWords x s.tableStore.leftShare (List.range (max (s.side x).tables.defectCount
    (applyEdits (s.entriesRead x) (s.side x).dev.edits).length))

/-- What the pending edits make of the side, the records and the store at a restart (R57, R169, R174). -/
theorem State.editsAtRestart_spec (s : State) (x : Side) (hcond : (s.side x).tables.poisonCond = false)
    (hclear : (s.faults.get (.side .tablePoisoned x)).state = .clear) :
    s.Within (s.editsAtRestart x) x (tableRecords x) ∧
      (∀ l, ((s.editsAtRestart x).link l).replies = (s.link l).replies) ∧
      { (s.editsAtRestart x).side x with tables := (s.side x).tables } = { s.side x with dev := { (s.side x).dev with edits := [] } } ∧
      ((s.editsAtRestart x).side x).tables.commit = (s.side x).tables.commit ∧
      ((s.editsAtRestart x).side x).tables.ctl = (s.side x).tables.ctl ∧
      ((s.side x).dev.edits = [] → s.editsAtRestart x = s) ∧
      (s.NoCountTrigger → ∀ y, s.ReadRun (s.editsAtRestart x) y (s.RestartWords x)) ∧
      ((s.side x).dev.edits ≠ [] → s.NoCountTrigger →
        s.TakesEdits (s.editsAtRestart x) x ∧
        ((s.entriesRead x).length = (s.side x).tables.defectCount →
          ((s.editsAtRestart x).side x).tables.poisonCond = false ∧
          ((s.editsAtRestart x).faults.get (.side .tablePoisoned x)).state = .clear) ∧
        ((s.entriesRead x).length < (s.side x).tables.defectCount →
          ((s.editsAtRestart x).faults.get (.side .tablePoisoned x)).state = .active ∧
          ((s.editsAtRestart x).faults.get (.side .tablePoisoned x)).detail = 13)) := by
  by_cases he : (s.side x).dev.edits = []
  · have heq : s.editsAtRestart x = s := if_pos he
    rw [heq]
    refine ⟨.refl s x _, fun _ => rfl, ?_, rfl, rfl, fun _ => rfl, fun hq y => .of_store hq rfl id _, fun h => absurd he h⟩
    rw [← he]
  · have heq : s.editsAtRestart x = (s.applyPendingEdits x).2 := if_neg he
    have hlist := State.readList_frame s x (s.side x).dev.edits
    rw [heq]
    refine ⟨State.applyPendingEdits_within s x, State.applyPendingEdits_replies s x, State.applyPendingEdits_side s x, ?_, ?_,
      fun h => absurd h he, fun hq y => (State.applyPendingEdits_reads hq x _ _ rfl rfl).2.2.2.2.2 y, fun _ hq => ⟨?_, ?_, ?_⟩⟩
    · rw [State.applyPendingEdits_eq, State.onSide_side]; exact hlist.commit
    · rw [State.applyPendingEdits_eq, State.onSide_side]; exact State.readList_ctl s x _
    · intro read new lost hread hnew hlost
      subst hread
      obtain ⟨-, htab, hset, -, hholds, -⟩ := State.applyPendingEdits_reads hq x new lost hnew hlost
      have hdev := congrArg SideState.dev (State.applyPendingEdits_side s x)
      simp only at hdev
      refine ⟨by rw [hdev], by rw [htab], hholds, by rw [htab]; rfl, fun h => ⟨?_, hset h⟩⟩
      rw [htab, h]; simp [SideTables.withLoss]
    · intro hlen
      have hlost : decide ((s.entriesRead x).length < (s.side x).tables.defectCount) = false := by simp [hlen]
      obtain ⟨-, htab, -, hrec, -, -⟩ := State.applyPendingEdits_reads hq x _ _ rfl rfl
      rw [hlost] at htab
      refine ⟨by rw [htab]; simp [SideTables.withLoss, hcond], by rw [hrec hlost]; exact hclear⟩
    · intro hlen
      exact State.applyPendingEdits_lost hq hclear hlen

end Sys2Proof.Machine
end

section
/-! RESTART_SIDE (R208): the obligation, for one side and for both. -/

namespace Sys2Proof.Machine

variable {s t u : State} {x : Side}

/-! ## One side -/

/-- What the restart of side `x` makes of the fault records and the link of the side (R190, R193). -/
def State.RecordsRestarted (s t : State) (x : Side) : Prop :=
  (∀ c, c ≠ .displayLinkDown → c ≠ .tablePoisoned → (t.faults.get (.side c x)).state = .clear) ∧
  ((s.side x).dev.edits = [] → (t.faults.get (.side .tablePoisoned x)).state = .clear ∧ (t.side x).tables.poisonCond = false) ∧
  ((s.link x).state = .up → (t.faults.get (.side .displayLinkDown x)).state = .clear ∧ (t.link x).linkCond = false) ∧
  ((s.link x).state ≠ .up → (s.link x).beenUp = true →
    (t.faults.get (.side .displayLinkDown x)).state = .active ∧ (t.link x).linkCond = true ∧
    (t.faults.get (.side .displayLinkDown x)).detail = (s.faults.get (.side .displayLinkDown x)).detail)

/-- What the restart of side `x` makes of its tables, the edits apart (R162, R174). -/
def SideState.TablesRestarted (d e : SideState) : Prop :=
  e.tables.commit = none ∧
  (∀ tb, e.tables.ctl.get tb = if (d.tables.commit.map (fun c => c.tables.getLsbD tb.num)) = some true
    then (d.tables.ctl.get tb).swapped else d.tables.ctl.get tb) ∧
  (d.dev.edits = [] → e.tables.defectCount = d.tables.defectCount ∧ e.tables.defectLoss = d.tables.defectLoss)

/-- What the restart of side `x` makes of its list where it has pending edits (R57, R78, R169, R174). -/
def State.ListRestarted (s t : State) (x : Side) : Prop :=
  s.TakesEdits t x ∧
  ((s.entriesRead x).length = (s.side x).tables.defectCount →
    (t.side x).tables.poisonCond = false ∧ (t.faults.get (.side .tablePoisoned x)).state = .clear) ∧
  ((s.entriesRead x).length < (s.side x).tables.defectCount →
    (t.faults.get (.side .tablePoisoned x)).state = .active ∧ (t.faults.get (.side .tablePoisoned x)).detail = 13)

/-- The restart of side `x` from `s` to `t`, and what it leaves (R208). -/
structure State.Restarts (s t : State) (x : Side) : Prop where
  blocks : (s.side x).BlocksRestarted (t.side x)
  tables : (s.side x).TablesRestarted (t.side x)
  records : s.RecordsRestarted t x
  list : (s.side x).dev.edits ≠ [] → s.NoCountTrigger → s.ListRestarted t x
  other : t.side x.other = s.side x.other
  faults : ∀ i, (∀ c, i ≠ .side c x) → i ≠ .part .errorCorrected → t.faults.get i = s.faults.get i
  rest : { t with sides := s.sides, links := s.links, faults := s.faults, tableStore := s.tableStore, corrCond := s.corrCond } = s
  link : ∀ l, { t.link l with
    notices := (s.link l).notices, replies := (s.link l).replies, linkCond := (s.link l).linkCond } = s.link l
  otherCond : (t.link x.other).linkCond = (s.link x.other).linkCond
  replies : ∀ l, (t.link l).replies = s.repliesSwapped [x] l
  store : (s.side x).dev.edits = [] → t.tableStore = s.tableStore
  run : s.NoCountTrigger → s.ReadRun t x.other (s.RestartWords x)

/-- The reads of a restart are those of the side before it. -/
theorem State.blocksRestarted_reads (s : State) (x : Side) :
    ((s.blocksRestarted x).side x).dev.edits = (s.side x).dev.edits ∧
      ((s.blocksRestarted x).side x).tables.defectCount = (s.side x).tables.defectCount ∧
      ((s.blocksRestarted x).side x).tables.defectLoss = (s.side x).tables.defectLoss ∧
      (s.blocksRestarted x).entriesRead x = s.entriesRead x ∧ (s.blocksRestarted x).RestartWords x = s.RestartWords x := by
  obtain ⟨hstore, -⟩ := s.blocksRestarted_frame x
  have hside := s.blocksRestarted_side x
  obtain ⟨-, -, hcount, hloss⟩ := s.swapPending_keeps x
  have hedits : ((s.blocksRestarted x).side x).dev.edits = (s.side x).dev.edits := by
    have h := congrArg Developer.edits (SideState.restarted_dev (s.side x))
    rw [hside]
    exact h
  have hcount' : ((s.blocksRestarted x).side x).tables.defectCount = (s.side x).tables.defectCount := by
    rw [hside]; exact hcount
  have hread : (s.blocksRestarted x).entriesRead x = s.entriesRead x := State.entriesRead_congr hstore hcount'
  refine ⟨hedits, hcount', by rw [hside]; exact hloss, hread, ?_⟩
  rw [State.RestartWords, State.RestartWords, hstore, hcount', hread, hedits]

theorem State.restartSide_restarts (s : State) (x : Side) : s.Restarts (s.restartSide x) x := by
  obtain ⟨c, hc⟩ : ∃ c, c = s.blocksRestarted x := ⟨_, rfl⟩
  obtain ⟨d, hd⟩ : ∃ d, d = c.editsAtRestart x := ⟨_, rfl⟩
  have ht : s.restartSide x = d.linkAtRestart x := by rw [hd, hc]; rfl
  obtain ⟨cstore, crest, cother, clink, creplies, cfaults, cclear, cdetail⟩ := s.blocksRestarted_frame x
  obtain ⟨cedits, ccount, closs, cread, cwords⟩ := s.blocksRestarted_reads x
  have cside := s.blocksRestarted_side x
  rw [← hc] at cstore crest cother clink creplies cfaults cclear cdetail cedits ccount closs cread cwords cside
  obtain ⟨dwithin, dreplies, dside, dcommit, dctl, dsame, drun, dlist⟩ :=
    c.editsAtRestart_spec x (by rw [cside]; rfl) (cclear .tablePoisoned)
  rw [← hd] at dwithin dreplies dside dcommit dctl dsame drun dlist
  obtain ⟨tsides, tstore, trest, tlink, tcond, tfaults, tup, tdown⟩ := d.linkAtRestart_spec x
  rw [← ht] at tsides tstore trest tlink tcond tfaults tup tdown
  have hside : ∀ y, (s.restartSide x).side y = d.side y := fun y => by rw [State.side, State.side, tsides]
  have hblocks : d.side x = { (s.side x).restarted with dev := { (s.side x).dev.idle with edits := [] }, tables := (d.side x).tables } := by
    have h := congrArg (fun e : SideState => { e with tables := (d.side x).tables }) dside
    rw [cside] at h
    refine Eq.trans h ?_
    simp only [SideState.restarted_dev]
  have hlinkx : ∀ l, (d.link l).state = (s.link l).state ∧ (d.link l).beenUp = (s.link l).beenUp := fun l => by
    have h1 := congrArg Link.state (dwithin.link l)
    have h2 := congrArg Link.state (clink l)
    have h3 := congrArg Link.beenUp (dwithin.link l)
    have h4 := congrArg Link.beenUp (clink l)
    exact ⟨h1.trans h2, h3.trans h4⟩
  have hdfault : ∀ k, k ≠ .tablePoisoned → d.faults.get (.side k x) = c.faults.get (.side k x) := fun k hk =>
    dwithin.faults _ (by simp [tableRecords, hk])
  refine ⟨?_, ⟨?_, fun tb => ?_, fun he => ?_⟩, ⟨fun k h1 h2 => ?_, fun he => ?_, fun hup => ?_, fun hup hbeen => ?_⟩, fun he hq => ?_,
    ?_, fun i hi hcorr => ?_, ?_, fun l => ?_, ?_, fun l => ?_, fun he => ?_, fun hq => ?_⟩
  · rw [hside, hblocks]
    exact SideState.restarted_blocks _ _
  · rw [hside, dcommit, cside]
    exact State.swapPending_commit s x
  · rw [hside, dctl, cside]
    exact State.swapPending_ctl s x tb
  · rw [hside, dsame (cedits.trans he)]
    exact ⟨ccount, closs⟩
  · rw [tfaults _ (by simp [h1]), hdfault k h2]
    exact cclear k
  · rw [hside, tfaults _ (by simp), dsame (cedits.trans he)]
    exact ⟨cclear _, by rw [cside]; rfl⟩
  · obtain ⟨h1, h2⟩ := tup ((hlinkx x).1.trans hup)
    rw [h2, hdfault _ (by simp)]
    exact ⟨cclear _, h1⟩
  · obtain ⟨h1, h2⟩ := tdown (by rw [(hlinkx x).1]; exact hup) ((hlinkx x).2.trans hbeen)
    rw [h2, hdfault _ (by simp)]
    refine ⟨FaultRecord.setAt_active (by rw [cclear]; simp) _ _, h1, ?_⟩
    rw [FaultRecord.setAt_detail]
    exact cdetail _ (by simp)
  · obtain ⟨h1, h2, h3⟩ := dlist (by rw [cedits]; exact he) (hq.congr cstore)
    unfold State.ListRestarted
    rw [hside, tfaults _ (by simp), ← cread, ← ccount]
    refine ⟨?_, h2, h3⟩
    intro read new lost hread hnew hlost
    obtain ⟨g1, g2, g3, g4, g5⟩ := h1 read new lost (by rw [cread]; exact hread) (by rw [cedits]; exact hnew)
      (by rw [ccount]; exact hlost)
    rw [hside, tfaults _ (by simp)]
    refine ⟨g1, g2, fun h => ?_, by rw [g4, closs], g5⟩
    unfold State.HoldsEntries at g3 ⊢
    rw [tstore]
    exact g3 (by rw [cedits]; exact h)
  · rw [hside]
    exact dwithin.other.trans cother
  · rw [tfaults i (hi _), dwithin.faults i (by simpa [tableRecords] using ⟨hcorr, hi _⟩)]
    exact cfaults i hi
  · have h1 := congrArg (fun w : State =>
      { w with sides := s.sides, links := s.links, faults := s.faults, tableStore := s.tableStore, corrCond := s.corrCond }) trest
    have h2 := congrArg (fun w : State =>
      { w with sides := s.sides, links := s.links, faults := s.faults, tableStore := s.tableStore, corrCond := s.corrCond }) dwithin.rest
    exact (h1.trans h2).trans crest
  · have h1 := congrArg (fun k : Link =>
      { k with notices := (s.link l).notices, replies := (s.link l).replies, linkCond := (s.link l).linkCond }) (tlink l)
    have h2 := congrArg (fun k : Link =>
      { k with notices := (s.link l).notices, replies := (s.link l).replies, linkCond := (s.link l).linkCond }) (dwithin.link l)
    have h3 := congrArg (fun k : Link => { k with linkCond := (s.link l).linkCond }) (clink l)
    exact (h1.trans h2).trans h3
  · have h1 := congrArg Link.linkCond (dwithin.link x.other)
    have h2 := congrArg Link.linkCond (clink x.other)
    exact tcond.trans (h1.trans h2)
  · have h1 := congrArg Link.replies (tlink l)
    exact h1.trans ((dreplies l).trans (creplies l))
  · rw [tstore, dsame (cedits.trans he), cstore]
  · have h1 : s.ReadRun c x.other fun _ => False := .of_store hq cstore (fun h => by rw [cfaults _ (by simp)]; exact h) _
    have h2 := drun h1.quiet x.other
    have h3 : d.ReadRun (s.restartSide x) x.other fun _ => False :=
      .of_store h2.quiet tstore (fun h => by rw [tfaults _ (by simp)]; exact h) _
    rw [cwords] at h2
    exact (h1.trans h2 (C := s.RestartWords x) fun a ha => ha.resolve_left id).trans h3 fun a ha => ha.resolve_right id

end Sys2Proof.Machine
end

section
/-! RESTART_SIDE (R208): the obligation, for one side and for both. -/

namespace Sys2Proof.Machine

variable {s t u : State} {x : Side}

/-! ## One side after the other -/

/-- What the obligation says of a side named. -/
structure State.SideRestarted (s t : State) (x : Side) : Prop where
  blocks : (s.side x).BlocksRestarted (t.side x)
  tables : (s.side x).TablesRestarted (t.side x)
  records : s.RecordsRestarted t x

theorem State.Restarts.sideRestarted (h : s.Restarts t x) : s.SideRestarted t x := ⟨h.blocks, h.tables, h.records⟩

theorem State.Restarts.link_state (h : s.Restarts t x) (l : Side) :
    (t.link l).state = (s.link l).state ∧ (t.link l).beenUp = (s.link l).beenUp ∧ (t.link l).mask = (s.link l).mask := by
  have h1 := congrArg Link.state (h.link l)
  have h2 := congrArg Link.beenUp (h.link l)
  have h3 := congrArg Link.mask (h.link l)
  exact ⟨h1, h2, h3⟩

/-- The restart of a side stands when the other side is restarted after it. -/
theorem State.SideRestarted.then (h : s.SideRestarted u x) (k : u.Restarts t x.other) : s.SideRestarted t x := by
  have hside : t.side x = u.side x := by have := k.other; rwa [Side.other_other] at this
  have hcond : (t.link x).linkCond = (u.link x).linkCond := by have := k.otherCond; rwa [Side.other_other] at this
  have hfaults : ∀ c, t.faults.get (.side c x) = u.faults.get (.side c x) := fun c =>
    k.faults _ (fun c' => by simp [(Side.other_ne x).symm]) (by simp)
  refine ⟨by rw [hside]; exact h.blocks, by rw [hside]; exact h.tables, ?_⟩
  have hr := h.records
  unfold State.RecordsRestarted at hr ⊢
  simp only [hside, hcond, hfaults]
  exact hr

/-- The restart of a side is made on the side as it was before the other was restarted. -/
theorem State.SideRestarted.before (h : s.Restarts u x.other) (k : u.SideRestarted t x) : s.SideRestarted t x := by
  have hside : u.side x = s.side x := by have := h.other; rwa [Side.other_other] at this
  obtain ⟨hstate, hbeen, -⟩ := h.link_state x
  have hfaults : ∀ c, u.faults.get (.side c x) = s.faults.get (.side c x) := fun c =>
    h.faults _ (fun c' => by simp [(Side.other_ne x).symm]) (by simp)
  refine ⟨hside ▸ k.blocks, hside ▸ k.tables, ?_⟩
  have hr := k.records
  unfold State.RecordsRestarted at hr ⊢
  rw [hside, hstate, hbeen, hfaults] at hr
  exact hr

/-! ## The list of a side, with the other restarted -/

theorem restartWords_left {a : Nat} (h : s.RestartWords .left a) (hc : (s.side .left).tables.defectCount ≤ s.tableStore.leftShare)
    (hn : (applyEdits (s.entriesRead .left) (s.side .left).dev.edits).length ≤ s.tableStore.leftShare) :
    a < 2048 + 2 * s.tableStore.leftShare := by
  obtain ⟨i, hi, ha⟩ := h
  have hi := List.mem_range.mp hi
  simp only [poolAddr] at ha
  omega

theorem restartWords_right {a : Nat} (h : s.RestartWords .right a) : 2048 + 2 * s.tableStore.leftShare ≤ a := by
  obtain ⟨i, hi, ha⟩ := h
  simp only [poolAddr] at ha
  omega

/-- The entries of a side read as before where the addresses read are not of its list. -/
theorem State.ReadRun.entriesRead {A : Nat → Prop} {y : Side} (h : s.ReadRun t y A) (hside : t.side x = s.side x)
    (hA : ∀ i, ¬ A (poolAddr x s.tableStore.leftShare i) ∧ ¬ A (poolAddr x s.tableStore.leftShare i + 1)) :
    t.entriesRead x = s.entriesRead x := by
  unfold State.entriesRead
  rw [hside]
  exact List.filterMap_congr fun i _ => State.entryAt_congr i h.share (h.data (hA i).1) (h.data (hA i).2)

/-- RIGHT's list is read after LEFT's restart as before it. -/
theorem State.ListRestarted.before_right (h : s.Restarts u .left) (hq : s.NoCountTrigger) (k : u.ListRestarted t .right)
    (hc : (s.side .left).tables.defectCount ≤ s.tableStore.leftShare)
    (hn : (applyEdits (s.entriesRead .left) (s.side .left).dev.edits).length ≤ s.tableStore.leftShare) : s.ListRestarted t .right := by
  have hside : u.side .right = s.side .right := h.other
  have hread : u.entriesRead .right = s.entriesRead .right := (h.run hq).entriesRead hside fun i => by
    constructor <;> intro g <;> have := restartWords_left g hc hn <;> simp only [poolAddr] at this <;> omega
  unfold State.ListRestarted State.TakesEdits at k ⊢
  rw [hside, hread] at k
  exact k

/-- LEFT's list stands when RIGHT is restarted after it. -/
theorem State.ListRestarted.then_right (h : s.ListRestarted u .left) (hq : u.NoCountTrigger) (k : u.Restarts t .right)
    (hshare : u.tableStore.leftShare = s.tableStore.leftShare)
    (hn : (applyEdits (s.entriesRead .left) (s.side .left).dev.edits).length ≤ s.tableStore.leftShare) : s.ListRestarted t .left := by
  have hside : t.side .left = u.side .left := k.other
  have hfault : t.faults.get (.side .tablePoisoned .left) = u.faults.get (.side .tablePoisoned .left) :=
    k.faults _ (by simp) (by simp)
  have run := k.run hq
  obtain ⟨h1, h2, h3⟩ := h
  unfold State.ListRestarted
  rw [hside, hfault]
  refine ⟨?_, h2, h3⟩
  intro read new lost hread hnew hlost
  obtain ⟨g1, g2, g3, g4, g5⟩ := h1 read new lost hread hnew hlost
  rw [hside, hfault]
  refine ⟨g1, g2, fun hw i e hi => ?_, g4, g5⟩
  have hlen : i < new.length := (List.getElem?_eq_some_iff.mp hi).1
  rw [← hread] at hn
  rw [← hnew] at hn
  have outside : ∀ a, a < 2048 + 2 * u.tableStore.leftShare → ¬ u.RestartWords .right a := fun a ha g => by
    have := restartWords_right g
    omega
  obtain ⟨e0, e1⟩ := g3 hw i e hi
  rw [run.share, run.stored _ (outside _ (by simp only [poolAddr]; omega)), run.stored _ (outside _ (by simp only [poolAddr]; omega))]
  exact ⟨e0, e1⟩

/-! ## The directive -/

/-- An entry of a reply queue after the swap of the pending commits of the sides `xs` (R162, R197). -/
def State.entrySwapped (s : State) (xs : List Side) (l : Side) : ReplyEntry → ReplyEntry
  | .ready q => .ready q
  | .reserved tag y =>
    match (s.side y).tables.commit with
    | some c => if y ∈ xs ∧ c.link = some l then .ready { tag := tag, reason := none, data := [c.tables.setWidth 16] } else .reserved tag y
    | none => .reserved tag y

theorem State.repliesSwapped_eq (s : State) (xs : List Side) (l : Side) :
    s.repliesSwapped xs l = (s.link l).replies.map (s.entrySwapped xs l) := by
  unfold State.repliesSwapped
  refine List.map_congr_left fun e _ => ?_
  cases e <;> rfl

/-- A reservation of a side that is not swapped stays. -/
theorem State.entrySwapped_out {xs : List Side} {l y : Side} (h : y ∉ xs) (tag : BitVec 8) :
    s.entrySwapped xs l (.reserved tag y) = .reserved tag y := by
  cases hc : (s.side y).tables.commit <;> simp [State.entrySwapped, hc, h]

/-- The swap of LEFT makes of its reservation a reply, or leaves it. -/
theorem State.entrySwapped_left (s : State) (l : Side) (tag : BitVec 8) :
    s.entrySwapped [.left] l (.reserved tag .left) = s.entrySwapped [.left, .right] l (.reserved tag .left) ∧
      ((∃ q, s.entrySwapped [.left] l (.reserved tag .left) = .ready q) ∨
        s.entrySwapped [.left] l (.reserved tag .left) = .reserved tag .left) := by
  cases hc : (s.side .left).tables.commit with
  | none => simp [State.entrySwapped, hc]
  | some c => by_cases hk : c.link = some l <;> simp [State.entrySwapped, hc, hk]

/-- The swap of LEFT and then of RIGHT is the swap of both. -/
theorem State.repliesSwapped_trans (h : ∀ l, (t.link l).replies = s.repliesSwapped [.left] l)
    (hc : (t.side .right).tables.commit = (s.side .right).tables.commit) (l : Side) :
    t.repliesSwapped [.right] l = s.repliesSwapped [.left, .right] l := by
  rw [State.repliesSwapped_eq, h, State.repliesSwapped_eq, State.repliesSwapped_eq, List.map_map]
  refine List.map_congr_left fun e _ => ?_
  rw [Function.comp_apply]
  cases e with
  | ready q => rfl
  | reserved tag y =>
    cases y with
    | left =>
      obtain ⟨hboth, ⟨q, hq⟩ | hkept⟩ := s.entrySwapped_left l tag
      · rw [← hboth, hq]; rfl
      · rw [← hboth, hkept, State.entrySwapped_out (by simp)]
    | right =>
      rw [State.entrySwapped_out (s := s) (xs := [.left]) (by simp)]
      simp only [State.entrySwapped, hc]
      cases (s.side .right).tables.commit <;> simp

/-- What the directive leaves of a state whose sides `xs` are restarted (R208). -/
structure State.SidesRestarted (s t : State) (xs : List Side) : Prop where
  sides : ∀ x ∈ xs, s.SideRestarted t x
  list : ∀ x ∈ xs, (s.side x).dev.edits ≠ [] → s.NoCountTrigger →
    (∀ y ∈ xs, (s.side y).tables.defectCount ≤ s.shareOf y ∧
      (applyEdits (s.entriesRead y) (s.side y).dev.edits).length ≤ s.shareOf y) → s.ListRestarted t x
  others : ∀ x, x ∉ xs → t.side x = s.side x ∧ ∀ c, t.faults.get (.side c x) = s.faults.get (.side c x)
  stale : t.faults.get (.part .panInputStale) = s.faults.get (.part .panInputStale)
  replies : ∀ k, (t.link k).replies = s.repliesSwapped xs k
  store : (∀ x ∈ xs, (s.side x).dev.edits = []) → t.tableStore = s.tableStore
  link : ∀ x, (t.link x).state = (s.link x).state ∧ (t.link x).mask = (s.link x).mask
  rest : { t with sides := s.sides, links := s.links, faults := s.faults, tableStore := s.tableStore, corrCond := s.corrCond } = s

/-- A restart of one side. -/
theorem State.Restarts.single (h : s.Restarts t x) : s.SidesRestarted t [x] where
  sides y hy := by rw [List.mem_singleton.mp hy]; exact h.sideRestarted
  list y hy he hq _ := by rw [List.mem_singleton.mp hy] at he ⊢; exact h.list he hq
  others y hy := by
    obtain rfl : y = x.other := (Side.eq_or_eq_other x y).resolve_left (by simpa using hy)
    exact ⟨h.other, fun c => h.faults _ (by simp) (by simp)⟩
  stale := h.faults _ (by simp) (by simp)
  replies := h.replies
  store he := h.store (he x (List.mem_singleton_self x))
  link l := ⟨(h.link_state l).1, (h.link_state l).2.2⟩
  rest := h.rest

/-- A restart of both sides, LEFT first. -/
theorem State.Restarts.both (h : s.Restarts u .left) (k : u.Restarts t .right) : s.SidesRestarted t [.left, .right] where
  sides y _ := by
    cases y with
    | left => exact h.sideRestarted.then k
    | right => exact State.SideRestarted.before h k.sideRestarted
  list y _ he hq hb := by
    obtain ⟨hc, hn⟩ := hb .left (by simp)
    have hright : u.side .right = s.side .right := h.other
    cases y with
    | left => exact (h.list he hq).then_right (h.run hq).quiet k (h.run hq).share hn
    | right => exact State.ListRestarted.before_right h hq (k.list (by rw [hright]; exact he) (h.run hq).quiet) hc hn
  others y hy := absurd (by cases y <;> decide) hy
  stale := (k.faults _ (by simp) (by simp)).trans (h.faults _ (by simp) (by simp))
  replies l := by
    rw [k.replies]
    exact State.repliesSwapped_trans h.replies (congrArg (fun d : SideState => d.tables.commit) h.other) l
  store he := by
    have hright : u.side .right = s.side .right := h.other
    rw [k.store (by rw [hright]; exact he .right (by simp)), h.store (he .left (by simp))]
  link l := ⟨(k.link_state l).1.trans (h.link_state l).1, (k.link_state l).2.2.trans (h.link_state l).2.2⟩
  rest := by
    have h1 := congrArg (fun w : State =>
      { w with sides := s.sides, links := s.links, faults := s.faults, tableStore := s.tableStore, corrCond := s.corrCond }) k.rest
    exact h1.trans h.rest

theorem State.forSides_restarted {f : BitVec 2} {xs : List Side} (hx : sidesField f = some xs) (s : State) :
    s.SidesRestarted (s.forSides xs State.restartSide) xs := by
  rcases sidesField_cases hx with rfl | rfl | rfl
  · exact (State.restartSide_restarts s .left).single
  · exact (State.restartSide_restarts s .right).single
  · rw [State.forSides, List.foldl_cons, List.foldl_cons, List.foldl_nil]
    exact (State.restartSide_restarts s .left).both (State.restartSide_restarts (s.restartSide .left) .right)

/-- Settles O55: each side named is restarted (`State.restartSide_restarts`), LEFT first, and the directive is answered DONE. -/
theorem restartSideRestartsEveryBlock : Obligations.RestartSideRestartsEveryBlock := by
  intro l xs p s ha hp hx
  obtain ⟨t, ht⟩ : ∃ t, t = s.forSides xs State.restartSide := ⟨_, rfl⟩
  have h : s.SidesRestarted t xs := ht ▸ State.forSides_restarted hx s
  have hlink : ∀ k, ((t.Answered l p.tag none []).link k).replies =
        (t.link k).replies ++ (if k = l then [.ready { tag := p.tag, reason := none, data := [] }] else []) ∧
      ((t.Answered l p.tag none []).link k).linkCond = (t.link k).linkCond ∧
      ((t.Answered l p.tag none []).link k).state = (t.link k).state ∧
      ((t.Answered l p.tag none []).link k).mask = (t.link k).mask := fun k => by
    rw [State.link_Answered]
    split
    · next e => rw [e]; exact ⟨rfl, rfl, rfl, rfl⟩
    · exact ⟨(List.append_nil _).symm, rfl, rfl, rfl⟩
  have hstore := congrArg State.frameStore h.rest
  have hartic := congrArg State.artic h.rest
  have hlocks := congrArg State.locks h.rest
  have htick := congrArg State.tick h.rest
  refine ⟨t.Answered l p.tag none [], ?_, fun x hxs => ?_, h.others, h.stale, fun k => ?_, h.store, fun x => ?_, hstore, hartic, hlocks,
    htick⟩
  · rw [exec_restartSide, State.take_eq _ _ ha.1, State.sidesDirective_eq s l p _ xs ha hp hx, ht]
    rfl
  · obtain ⟨⟨b1, b2, b3, b4, b5, b6, b7, b8, b9, b10, b11, b12, b13, b14, b15⟩, ⟨t1, t2, t3⟩, ⟨r1, r2, r3, r4⟩⟩ := h.sides x hxs
    rw [(hlink x).2.1]
    exact ⟨b1, b2, b3, b4, b5, b6, b7, b8, b9, b10, b11, b12, b13, b14, b15, t1, t2, t3,
      fun he hq hb _ => h.list x hxs he hq hb, r1, r2, r3, r4⟩
  · rw [(hlink k).1, h.replies]
  · rw [(hlink x).2.2.1, (hlink x).2.2.2]
    exact h.link x

end Sys2Proof.Machine
end

section
/-! The development chain on one frame (R58 to R76): which rows are complete, cells, gain and tone, panes and markers. -/

namespace Sys2Proof.Machine

/-! ## Which cell rows a line completes (R59, R63, R64) -/

theorem mem_defectColumns {defects : List (Nat × Nat)} {r col : Nat} : col ∈ defectColumns defects r ↔ (r, col) ∈ defects := by
  simp [defectColumns]

theorem leftUsable_iff {defects : List (Nat × Nat)} {r col : Nat} :
    leftUsable (defectColumns defects r) col = true ↔ 2 ≤ col ∧ (r, col - 2) ∉ defects := by
  simp [leftUsable, mem_defectColumns]

theorem rightUsable_iff {defects : List (Nat × Nat)} {r col : Nat} :
    rightUsable (defectColumns defects r) col = true ↔ col + 2 ≤ 1919 ∧ (r, col + 2) ∉ defects := by
  simp [rightUsable, mem_defectColumns, Nat.lt_succ_iff]

theorem replacedFromBeyond_iff (defects : List (Nat × Nat)) (r : Nat) :
    replacedFromBeyond (defectColumns defects r) = true ↔ ReachesBeyond defects r := by
  have left : ∀ col, leftUsable (defectColumns defects r) col = false ↔ col < 2 ∨ (r, col - 2) ∈ defects := fun col => by
    rw [← Bool.not_eq_true, leftUsable_iff, not_and_or, not_not, not_le]
  have right : ∀ col, rightUsable (defectColumns defects r) col = false ↔ 1917 < col ∨ (r, col + 2) ∈ defects := fun col => by
    rw [← Bool.not_eq_true, rightUsable_iff, not_and_or, not_not]
    exact or_congr_left (by omega)
  simp only [replacedFromBeyond, List.any_eq_true, mem_defectColumns, Bool.and_eq_true, decide_eq_true_eq, Bool.not_eq_true', left,
    right, ReachesBeyond]
  exact ⟨fun ⟨col, hmem, ⟨hlt, hl⟩, hr⟩ => ⟨col, by omega, hmem, hl, hr⟩, fun ⟨col, hlt, hmem, hl, hr⟩ => ⟨col, hmem, ⟨by omega, hl⟩, hr⟩⟩

theorem mem_completedRows {defects : List (Nat × Nat)} {n cy : Nat} :
    cy ∈ completedRows defects n ↔ (cy = 0 ∧ n = firstRowAt defects) ∨ (1 ≤ cy ∧ n = 2 * cy + 1) := by
  unfold completedRows
  rw [List.mem_append]
  refine or_congr ?_ ?_
  · split
    · next h => simp [h]
    · next h => simp [h]
  · split
    · next h => rw [List.mem_singleton]; omega
    · next h => simp only [List.not_mem_nil, false_iff]; omega

/-- A line completes no cell row twice. -/
theorem nodup_completedRows (defects : List (Nat × Nat)) (n : Nat) : (completedRows defects n).Nodup := by
  unfold completedRows
  split <;> split
  · next h => simp only [List.cons_append, List.nil_append, List.nodup_cons, List.mem_singleton, List.not_mem_nil, not_false_eq_true,
      List.nodup_nil, and_true]; omega
  all_goals simp

theorem zero_mem_completedRows (defects : List (Nat × Nat)) (n : Nat) : 0 ∈ completedRows defects n ↔
    (ReachesBeyond defects 1 ∧ n = 3) ∨ (¬ ReachesBeyond defects 1 ∧ ReachesBeyond defects 0 ∧ n = 2) ∨
    (¬ ReachesBeyond defects 1 ∧ ¬ ReachesBeyond defects 0 ∧ n = 1) := by
  rw [mem_completedRows, firstRowAt]
  simp only [← replacedFromBeyond_iff]
  cases replacedFromBeyond (defectColumns defects 1) <;> cases replacedFromBeyond (defectColumns defects 0) <;> simp

/-! ## Cells (R63, R64) -/

/-- A row with its defects replaced, sample by sample (R63). -/
theorem getElem?_replaceRow (defects : List (Nat × Nat)) (row : Nat → List Nat) (r col : Nat) (h : col < (row r).length) :
    (replaceRow (defectColumns defects r) (row r) (row (if 2 ≤ r then r - 2 else r + 2)))[col]? =
      some (replacedSample defects row r col) := by
  have hget : (row r)[col]? = some ((row r).getD col 0) := by
    rw [List.getD_eq_getElem?_getD, List.getElem?_eq_getElem h]; rfl
  have hat : replaceAt (defectColumns defects r) (row r) (row (if 2 ≤ r then r - 2 else r + 2)) col =
      if 2 ≤ col ∧ (r, col - 2) ∉ defects then
        if col + 2 ≤ 1919 ∧ (r, col + 2) ∉ defects then ((row r).getD (col - 2) 0 + (row r).getD (col + 2) 0) / 2
        else (row r).getD (col - 2) 0
      else if col + 2 ≤ 1919 ∧ (r, col + 2) ∉ defects then (row r).getD (col + 2) 0
      else (row (if 2 ≤ r then r - 2 else r + 2)).getD col 0 := by
    simp only [← leftUsable_iff, ← rightUsable_iff]
    unfold replaceAt
    cases leftUsable (defectColumns defects r) col <;> cases rightUsable (defectColumns defects r) col <;> rfl
  unfold replaceRow
  split
  · next hnil =>
    have hout : (r, col) ∉ defects := fun g => by
      have := mem_defectColumns.mpr g
      rw [hnil] at this
      exact List.not_mem_nil this
    rw [hget, replacedSample, if_neg hout]
  · rw [List.getElem?_map, List.getElem?_zipIdx, hget]
    simp only [Option.map_some, Nat.zero_add, hat, List.contains_eq_mem, decide_eq_true_eq, mem_defectColumns]
    rfl

theorem length_replaceRow (cols row beyond : List Nat) : (replaceRow cols row beyond).length = row.length := by
  unfold replaceRow
  split <;> simp

/-- A cell of a cell row, from its even and its odd sample row (R64). -/
theorem getElem?_demosaic (even odd : List Nat) (c : Nat) (r g1 g2 b : Nat) (hr : even[2 * c]? = some r)
    (hg1 : even[2 * c + 1]? = some g1) (hg2 : odd[2 * c]? = some g2) (hb : odd[2 * c + 1]? = some b) :
    (demosaic even odd)[c]? = some { r := r, g := (g1 + g2) / 2, b := b } := by
  induction c generalizing even odd with
  | zero =>
    match even, odd with
    | _ :: _ :: _, _ :: _ :: _ => simp_all [demosaic]
    | [], _ => simp at hr
    | [_], _ => simp at hg1
    | _ :: _ :: _, [] => simp at hg2
    | _ :: _ :: _, [_] => simp at hb
  | succ c ih =>
    match even, odd with
    | _ :: _ :: even, _ :: _ :: odd => exact ih even odd hr hg1 hg2 hb
    | [], _ => simp at hr
    | [_], _ => simp at hg1
    | _ :: _ :: _, [] => simp at hg2
    | _ :: _ :: _, [_] => simp at hb

theorem getElem?_cellRow (defects : List (Nat × Nat)) (recent : List (List Nat)) (n cy c : Nat) (at' : Nat → Nat → Nat)
    (hat : at' = replacedSample defects (fun r => recent.getD (n - r) [])) (heven : (recent.getD (n - 2 * cy) []).length = 1920)
    (hodd : (recent.getD (n - (2 * cy + 1)) []).length = 1920) (hc : c < 960) :
    (cellRow defects recent n cy)[c]? = some
      { r := at' (2 * cy) (2 * c), g := (at' (2 * cy) (2 * c + 1) + at' (2 * cy + 1) (2 * c)) / 2,
        b := at' (2 * cy + 1) (2 * c + 1) } := by
  subst hat
  have even : ∀ col, col < 1920 → _ := fun col h =>
    getElem?_replaceRow defects (fun r => recent.getD (n - r) []) (2 * cy) col (by rw [heven]; exact h)
  have odd : ∀ col, col < 1920 → _ := fun col h =>
    getElem?_replaceRow defects (fun r => recent.getD (n - r) []) (2 * cy + 1) col (by rw [hodd]; exact h)
  exact getElem?_demosaic _ _ c _ _ _ _ (even _ (by omega)) (even _ (by omega)) (odd _ (by omega)) (odd _ (by omega))

/-! ## Gain and tone (R66 to R69) -/

theorem developChannel_eq (curve : List Nat) (d s f v k r : Nat) (wb z g q : Int) (hg : g = max (-2048) (min (d + wb + z) 1024))
    (hq : g = 256 * q + f) (hf : f < 256) (hup : 0 ≤ q → v = min 4095 ((s * mt f * 2 ^ q.toNat + 16384) / 32768))
    (hdown : q < 0 → v = min 4095 ((s * mt f + 2 ^ (14 + (-q).toNat)) / 2 ^ (15 + (-q).toNat))) (hv : v = 64 * k + r) (hr : r < 64) :
    developChannel curve d wb z s =
      BitVec.ofNat 8 (min 255 ((curve.getD k 0 + ((curve.getD (k + 1) 0 - curve.getD k 0) * r + 32) / 64 + 2) / 4)) := by
  have htotal : totalGain d wb z = g := hg.symm
  have hdiv : g / 256 = q := by omega
  have hrest : (g - 256 * q).toNat = f := by omega
  have hlin : linearValue s g = v := by
    unfold linearValue
    simp only [hdiv, hrest]
    split
    · next h => exact (hup h).symm
    · next h => exact (hdown (by omega)).symm
  have hk : v / 64 = k := by omega
  have hrem : v - 64 * k = r := by omega
  unfold developChannel outputValue toneValue
  simp only [htotal, hlin, hk, hrem]

/-! ## Panes and markers (R70, R72 to R74) -/

theorem framePanes_live (l : Layout) (inp : FrameInputs) :
    framePanes .live l inp =
      [({ firstRow := 0, height := l.mainH, window := inp.main, hstep := 1024 * inp.main.w / 720,
          vstep := 1024 * inp.main.h / l.mainH }, l.markers.filter (fun m => !m.wide)),
       ({ firstRow := l.mainH, height := 1280 - l.mainH, window := inp.wide, hstep := 1024 * inp.wide.w / 720,
          vstep := 1024 * inp.wide.h / (1280 - l.mainH) }, l.markers.filter (fun m => m.wide))] := by
  have hmain : markersOf l.markers false = l.markers.filter (fun m => !m.wide) := by
    unfold markersOf
    exact List.filter_congr fun m _ => by cases m.wide <;> rfl
  have hwide : markersOf l.markers true = l.markers.filter (fun m => m.wide) := by
    unfold markersOf
    exact List.filter_congr fun m _ => by cases m.wide <;> rfl
  rw [← hmain, ← hwide]
  rfl

theorem Pane.covered_iff (p : Pane) (m : Marker) (yp : Nat) : p.covered m yp = true ↔
    p.window.y ≤ m.row ∧ m.row < p.window.y + p.window.h ∧ ∃ y0, y0 < p.height ∧ m.row ≤ p.window.y + y0 * p.vstep / 1024 ∧
      (∀ y, y < y0 → p.window.y + y * p.vstep / 1024 < m.row) ∧ y0 ≤ yp ∧ yp < y0 + m.thickness := by
  have hrow : ∀ y0, p.markerRow m = some y0 ↔ (p.window.y ≤ m.row ∧ m.row < p.window.y + p.window.h) ∧
      y0 < p.height ∧ m.row ≤ p.window.y + y0 * p.vstep / 1024 ∧ ∀ y, y < y0 → p.window.y + y * p.vstep / 1024 < m.row := fun y0 => by
    unfold Pane.markerRow
    split
    · next h =>
      rw [List.find?_range_eq_some]
      simp only [List.mem_range, Pane.sourceRow, Bool.not_eq_true']
      exact ⟨fun ⟨h1, h2, h3⟩ => ⟨h, h2, of_decide_eq_true h1, fun y hy => not_le.mp (of_decide_eq_false (h3 y hy))⟩,
        fun ⟨_, h2, h1, h3⟩ => ⟨decide_eq_true h1, h2, fun y hy => decide_eq_false (not_le.mpr (h3 y hy))⟩⟩
    · next h => exact ⟨fun g => (by cases g), fun g => absurd g.1 h⟩
  constructor
  · intro hc
    unfold Pane.covered at hc
    split at hc
    · next y0 hy =>
      obtain ⟨⟨h1, h2⟩, h3, h4, h5⟩ := (hrow y0).mp hy
      simp only [Bool.and_eq_true, decide_eq_true_eq] at hc
      exact ⟨h1, h2, y0, h3, h4, h5, hc.1, hc.2⟩
    · cases hc
  · rintro ⟨h1, h2, y0, h3, h4, h5, h6, h7⟩
    unfold Pane.covered
    rw [(hrow y0).mpr ⟨⟨h1, h2⟩, h3, h4, h5⟩]
    simp [h6, h7]

theorem Pane.rowColour_spec (p : Pane) (ms : List Marker) (yp : Nat) :
    ((∀ m ∈ ms, p.covered m yp = false) → p.rowColour ms yp = none) ∧
    ∀ pre m post c, ms = pre ++ m :: post → p.covered m yp = true → (∀ o ∈ post, p.covered o yp = false) →
      ([{ r := 255, g := 255, b := 255 }, { r := 255, g := 255, b := 0 }, { r := 255, g := 0, b := 0 },
        { r := 0, g := 255, b := 0 }] : List Pixel)[m.colour]? = some c → p.rowColour ms yp = some c := by
  refine ⟨fun h => ?_, fun pre m post c hms hm hpost hc => ?_⟩
  · have hnil : ms.filter (fun m => p.covered m yp) = [] := List.filter_eq_nil_iff.mpr fun m hm => by rw [h m hm]; simp
    rw [Pane.rowColour, hnil]
    rfl
  · have hnil : post.filter (fun m => p.covered m yp) = [] := List.filter_eq_nil_iff.mpr fun o ho => by rw [hpost o ho]; simp
    have hlast : ms.filter (fun m => p.covered m yp) = pre.filter (fun m => p.covered m yp) ++ [m] := by
      rw [hms, List.filter_append, List.filter_cons_of_pos (by exact hm), hnil]
    have hcolour : markerColour m.colour = c := by
      rcases hk : m.colour with _ | _ | _ | _ | k <;> rw [hk] at hc <;> simp at hc <;> exact hc
    rw [Pane.rowColour, hlast, List.getLast?_concat, Option.map_some, hcolour]

end Sys2Proof.Machine
end

section
/-! The output rows in the frame store (R71, R73, R76, R117): the bytes of a row, its words, and what a run of written rows leaves in
memory. -/

namespace Sys2Proof.Machine

/-! ## Bytes and words (R117) -/

theorem wordOfBytes_extract (b : Fin 8 → Byte) (j : Fin 8) :
    (wordOfBytes (b 0) (b 1) (b 2) (b 3) (b 4) (b 5) (b 6) (b 7)).extractLsb' (8 * j.val) 8 = b j := by
  have skip : ∀ {n : Nat} (hi : BitVec n) (lo : Byte) (k : Nat), (hi ++ lo).extractLsb' (8 * (k + 1)) 8 = hi.extractLsb' (8 * k) 8 :=
    fun hi lo k => BitVec.extractLsb'_append_eq_of_le (by omega)
  have low : ∀ {n : Nat} (hi : BitVec n) (lo : Byte), (hi ++ lo).extractLsb' (8 * 0) 8 = lo :=
    fun hi lo => BitVec.extractLsb'_append_eq_right
  have last : ∀ b : Byte, b.extractLsb' (8 * 0) 8 = b := fun b => BitVec.extractLsb'_eq_self
  unfold wordOfBytes
  match j with
  | 0 => exact low _ _
  | 1 => exact (skip _ _ 0).trans (low _ _)
  | 2 => exact (skip _ _ 1).trans ((skip _ _ 0).trans (low _ _))
  | 3 => exact (skip _ _ 2).trans ((skip _ _ 1).trans ((skip _ _ 0).trans (low _ _)))
  | 4 => exact (skip _ _ 3).trans ((skip _ _ 2).trans ((skip _ _ 1).trans ((skip _ _ 0).trans (low _ _))))
  | 5 => exact (skip _ _ 4).trans ((skip _ _ 3).trans ((skip _ _ 2).trans ((skip _ _ 1).trans ((skip _ _ 0).trans (low _ _)))))
  | 6 =>
    exact (skip _ _ 5).trans ((skip _ _ 4).trans ((skip _ _ 3).trans ((skip _ _ 2).trans ((skip _ _ 1).trans
      ((skip _ _ 0).trans (low _ _))))))
  | 7 =>
    exact (skip _ _ 6).trans ((skip _ _ 5).trans ((skip _ _ 4).trans ((skip _ _ 3).trans ((skip _ _ 2).trans
      ((skip _ _ 1).trans ((skip _ _ 0).trans (last _)))))))

theorem length_bytesToWords (bs : List Byte) (n : Nat) (h : bs.length = 8 * n) : (bytesToWords bs).length = n := by
  induction n generalizing bs with
  | zero => rw [List.length_eq_zero_iff.mp h]; rfl
  | succ n ih =>
    match bs, h with
    | _ :: _ :: _ :: _ :: _ :: _ :: _ :: _ :: bs, h => exact congrArg (· + 1) (ih bs (by simp only [List.length_cons] at h; omega))

/-- Byte lane `j` of word `i` of a run of bytes. -/
theorem bytesToWords_getElem? (bs : List Byte) (n i : Nat) (h : bs.length = 8 * n) (hi : i < n) :
    ∃ v, (bytesToWords bs)[i]? = some v ∧ ∀ j, j < 8 → some (v.extractLsb' (8 * j) 8) = bs[8 * i + j]? := by
  induction n generalizing bs i with
  | zero => omega
  | succ n ih =>
    match bs, h with
    | b0 :: b1 :: b2 :: b3 :: b4 :: b5 :: b6 :: b7 :: bs, h =>
      cases i with
      | zero =>
        refine ⟨_, rfl, fun j hj => ?_⟩
        have hlane := wordOfBytes_extract (fun k => ([b0, b1, b2, b3, b4, b5, b6, b7] : List Byte).get k) ⟨j, hj⟩
        refine (congrArg some hlane).trans ?_
        match j, hj with
        | 0, _ | 1, _ | 2, _ | 3, _ | 4, _ | 5, _ | 6, _ | 7, _ => rfl
      | succ i =>
        obtain ⟨v, hv, hbytes⟩ := ih bs i (by simp only [List.length_cons] at h; omega) (by omega)
        refine ⟨v, hv, fun j hj => (hbytes j hj).trans ?_⟩
        have hidx : 8 * (i + 1) + j = 8 * i + j + 8 := by omega
        rw [hidx]
        rfl

/-- Channel `k` of a pixel, in the order of the bytes. -/
def Pixel.channel (p : Pixel) (k : Nat) : Byte :=
  match k with
  | 0 => p.r
  | 1 => p.g
  | _ => p.b

theorem rowBytes_getElem? (px : List Pixel) (k : Nat) : (rowBytes px)[k]? = px[k / 3]?.map (fun p => p.channel (k % 3)) := by
  induction px generalizing k with
  | nil => simp [rowBytes]
  | cons p ps ih =>
    match k with
    | 0 | 1 | 2 => rfl
    | k + 3 =>
      have hdiv : (k + 3) / 3 = k / 3 + 1 := by omega
      have hmod : (k + 3) % 3 = k % 3 := by omega
      rw [hdiv, hmod, List.getElem?_cons_succ, ← ih]
      rfl

theorem length_rowBytes (px : List Pixel) : (rowBytes px).length = 3 * px.length := by
  induction px with
  | nil => rfl
  | cons p ps ih =>
    have hcons : (rowBytes (p :: ps)).length = (rowBytes ps).length + 3 := rfl
    rw [hcons, ih, List.length_cons]
    omega

/-- The words of a row of pixels, with check bits (R117, R119). -/
def rowWords (px : List Pixel) : List (BitVec 72) := (bytesToWords (rowBytes px)).map (encodeWord 72)

theorem length_rowWords {px : List Pixel} (h : px.length = 720) : (rowWords px).length = 270 := by
  rw [rowWords, List.length_map, length_bytesToWords _ 270 (by rw [length_rowBytes, h])]

/-- Each byte lane of each word of a row is a channel of a pixel. -/
theorem rowWords_getElem? {px : List Pixel} {w : Nat} (h : px.length = 720) (hw : w < 270) :
    ∃ v : BitVec 64, (rowWords px)[w]? = some (encodeWord 72 v) ∧
      ∀ j q, j < 8 → px[(8 * w + j) / 3]? = some q → v.extractLsb' (8 * j) 8 = q.channel ((8 * w + j) % 3) := by
  obtain ⟨v, hv, hbytes⟩ := bytesToWords_getElem? (rowBytes px) 270 w (by rw [length_rowBytes, h]) hw
  refine ⟨v, by rw [rowWords, List.getElem?_map, hv]; rfl, fun j q hj hq => ?_⟩
  have hlane := hbytes j hj
  rw [rowBytes_getElem?, hq] at hlane
  exact Option.some.inj hlane

theorem Pane.length_row (p : Pane) (t : ToneInputs) (ms : List Marker) (cells : List Cell) (cy yp : Nat) :
    (p.row t ms cells cy yp).length = 720 := by
  unfold Pane.row
  split
  · exact List.length_replicate
  · rw [List.length_map, List.length_range]

theorem Pane.row_getElem? (p : Pane) (t : ToneInputs) (ms : List Marker) (cells : List Cell) (cy yp i : Nat) (h : i < 720) :
    (p.row t ms cells cy yp)[i]? = some ((p.rowColour ms yp).getD (developPixel t cells (p.sourceCol i) cy)) := by
  unfold Pane.row
  cases p.rowColour ms yp with
  | some c => exact List.getElem?_replicate_of_lt h
  | none => simp only [List.getElem?_map, List.getElem?_range h, Option.map_some, Option.getD_none]

/-! ## Rows in memory -/

/-- A row of pixels with the slot and the row number it is written to. -/
structure SlotRow where
  slot : SlotNo
  row : Nat
  pixels : List Pixel

/-- The frame store with one row written. -/
def writtenRow (x : Side) (m : Mem 72) (r : SlotRow) : Mem 72 :=
  Mem.writeBlock frameDefault m (frameAddr x r.slot r.row 0) (rowWords r.pixels)

/-- The frame store with a list of rows written in order. -/
def writtenRows (x : Side) (rs : List SlotRow) (m : Mem 72) : Mem 72 := rs.foldl (writtenRow x) m

theorem writtenRow_out {x : Side} {m : Mem 72} {r : SlotRow} {a : Nat} (hlen : r.pixels.length = 720)
    (h : a < frameAddr x r.slot r.row 0 ∨ frameAddr x r.slot r.row 0 + 270 ≤ a) :
    Mem.read frameDefault (writtenRow x m r) a = Mem.read frameDefault m a :=
  Mem.read_writeBlock_out m _ _ a (by rw [length_rowWords hlen]; exact h)

theorem writtenRow_in {x : Side} {m : Mem 72} {r : SlotRow} {w : Nat} {v : BitVec 72} (h : (rowWords r.pixels)[w]? = some v) :
    Mem.read frameDefault (writtenRow x m r) (frameAddr x r.slot r.row w) = v := by
  obtain ⟨hlt, hv⟩ := List.getElem?_eq_some_iff.mp h
  exact (Mem.read_writeBlock_in m (frameAddr x r.slot r.row 0) _ w hlt).trans hv

/-- A word outside every row written stands. -/
theorem writtenRows_out {x : Side} {rs : List SlotRow} {a : Nat} (hlen : ∀ r ∈ rs, r.pixels.length = 720)
    (h : ∀ r ∈ rs, a < frameAddr x r.slot r.row 0 ∨ frameAddr x r.slot r.row 0 + 270 ≤ a) (m : Mem 72) :
    Mem.read frameDefault (writtenRows x rs m) a = Mem.read frameDefault m a := by
  induction rs generalizing m with
  | nil => rfl
  | cons r rs ih =>
    rw [List.forall_mem_cons] at hlen h
    exact (ih hlen.2 h.2 _).trans (writtenRow_out hlen.1 h.1)

/-- A word of a row written holds that row, where no two rows written to one place differ. -/
theorem writtenRows_in {x : Side} {n : SlotNo} {rs : List SlotRow} {y w : Nat} {px : List Pixel} {v : BitVec 72} (hw : w < 270)
    (hlen : ∀ r ∈ rs, r.pixels.length = 720) (hslot : ∀ r ∈ rs, r.slot = n) (honly : ∀ r ∈ rs, r.row = y → r.pixels = px)
    (hv : (rowWords px)[w]? = some v) (m : Mem 72) (hmem : (∃ r ∈ rs, r.row = y) ∨ Mem.read frameDefault m (frameAddr x n y w) = v) :
    Mem.read frameDefault (writtenRows x rs m) (frameAddr x n y w) = v := by
  induction rs generalizing m with
  | nil => exact hmem.resolve_left fun ⟨r, hr, _⟩ => List.not_mem_nil hr
  | cons r rs ih =>
    rw [List.forall_mem_cons] at hlen hslot honly
    refine ih hlen.2 hslot.2 honly.2 _ ?_
    by_cases hy : r.row = y
    · have hread := writtenRow_in (x := x) (m := m) (r := r) (w := w) (v := v) (by rw [honly.1 hy]; exact hv)
      rw [hslot.1, hy] at hread
      exact .inr hread
    · rcases hmem with ⟨q, hq, hqy⟩ | hread
      · exact .inl ⟨q, (List.mem_cons.mp hq).resolve_left (fun g => hy (g ▸ hqy)), hqy⟩
      · refine .inr ((writtenRow_out hlen.1 ?_).trans hread)
        simp only [frameAddr, hslot.1]
        omega

theorem writtenRows_append (x : Side) (as bs : List SlotRow) (m : Mem 72) :
    writtenRows x (as ++ bs) m = writtenRows x bs (writtenRows x as m) := List.foldl_append

end Sys2Proof.Machine
end

section
/-! An active line at the developer (R3, R59, R65, R76): what it leaves unchanged, the accumulators, and the rows it writes. -/

namespace Sys2Proof.Machine

/-! ## The output rows of a completed cell row -/

/-- The output rows that a completed cell row writes into the slot of the frame in flight (R71, R76). -/
def cellRowOutput (g : Geometry) (l : Layout) (t : ToneInputs) (inp : FrameInputs) (cells : List Cell) (cy : Nat) : List SlotRow :=
  match inp.slot with
  | none => []
  | some n => ((framePanes g l inp).map (paneRowsFrom t cells cy)).flatten.map (fun r => { slot := n, row := r.1, pixels := r.2 })

theorem mem_cellRowOutput {g : Geometry} {l : Layout} {t : ToneInputs} {inp : FrameInputs} {cells : List Cell} {cy : Nat} {r : SlotRow} :
    r ∈ cellRowOutput g l t inp cells cy ↔ inp.slot = some r.slot ∧ ∃ p ∈ framePanes g l inp, ∃ yp, yp < p.1.height ∧
      p.1.sourceRow yp = cy ∧ r.row = p.1.firstRow + yp ∧ r.pixels = p.1.row t p.2 cells cy yp := by
  unfold cellRowOutput
  split
  · next h => simp [h]
  · next n h =>
    obtain ⟨m, y, px⟩ := r
    simp only [List.mem_map, List.mem_flatten, paneRowsFrom, SlotRow.mk.injEq, h, Option.some.injEq]
    constructor
    · rintro ⟨q, ⟨_, ⟨p, hp, rfl⟩, hq⟩, hn, hy, hpx⟩
      obtain ⟨yp, hyp, rfl⟩ := List.mem_map.mp hq
      rw [List.mem_filter, List.mem_range, decide_eq_true_eq] at hyp
      exact ⟨hn, p, hp, yp, hyp.1, hyp.2, hy.symm, hpx.symm⟩
    · rintro ⟨hn, p, hp, yp, hlt, hsrc, hy, hpx⟩
      refine ⟨(y, px), ⟨_, ⟨p, hp, rfl⟩, List.mem_map.mpr ⟨yp, ?_, Prod.ext hy.symm hpx.symm⟩⟩, hn, rfl, rfl⟩
      rw [List.mem_filter, List.mem_range, decide_eq_true_eq]
      exact ⟨hlt, hsrc⟩

/-- An output row belongs to one pane alone (R70, R74). -/
theorem framePanes_row_inj {g : Geometry} {l : Layout} {inp : FrameInputs} {p q : Pane × List Marker} {y z : Nat}
    (hp : p ∈ framePanes g l inp) (hq : q ∈ framePanes g l inp) (hy : y < p.1.height) (hz : z < q.1.height)
    (h : p.1.firstRow + y = q.1.firstRow + z) : p = q ∧ y = z := by
  cases g with
  | service =>
    obtain rfl := (List.mem_singleton.mp hp).trans (List.mem_singleton.mp hq).symm
    exact ⟨rfl, by omega⟩
  | live =>
    rw [framePanes_live, List.mem_pair] at hp hq
    rcases hp with rfl | rfl <;> rcases hq with rfl | rfl
    · exact ⟨rfl, Nat.add_left_cancel h⟩
    · simp only at hy hz h; omega
    · simp only at hy hz h; omega
    · exact ⟨rfl, Nat.add_left_cancel h⟩

/-! ## What the developer changes -/

/-- What completed cell rows do: the accumulators change by `add`, and the rows `rs` are written; nothing else changes but the client
that the DRAM port served last. -/
structure State.Developed (s t : State) (x : Side) (add : List ZoneAcc → List ZoneAcc) (rs : List SlotRow) : Prop where
  side : t.side x = { s.side x with dev := { (s.side x).dev with zones := add (s.side x).dev.zones } }
  other : t.side x.other = s.side x.other
  mem : t.frameStore.mem = writtenRows x rs s.frameStore.mem
  store : { t.frameStore with mem := s.frameStore.mem, lastServed := s.frameStore.lastServed } = s.frameStore
  frame : { t with sides := s.sides, frameStore := s.frameStore } = s

variable {s t u : State} {x : Side} {add add' : List ZoneAcc → List ZoneAcc} {rs rs' : List SlotRow}

theorem State.Developed.refl (s : State) (x : Side) : s.Developed s x id [] := ⟨rfl, rfl, rfl, rfl, rfl⟩

theorem State.Developed.trans (h : s.Developed t x add rs) (k : t.Developed u x add' rs') :
    s.Developed u x (add' ∘ add) (rs ++ rs') where
  side := by rw [k.side, h.side]; rfl
  other := k.other.trans h.other
  mem := by rw [k.mem, h.mem, writtenRows_append]
  store := by
    have hs := congrArg (fun m : FrameStore => { m with mem := s.frameStore.mem, lastServed := s.frameStore.lastServed }) k.store
    exact Eq.trans hs h.store
  frame := by
    have hf := congrArg (fun m : State => { m with sides := s.sides, frameStore := s.frameStore }) k.frame
    exact Eq.trans hf h.frame

theorem State.Developed.onSide (s : State) (x : Side) (add : List ZoneAcc → List ZoneAcc) :
    s.Developed (s.onSide x (fun d => { d with dev := { d.dev with zones := add d.dev.zones } })) x add [] :=
  ⟨State.onSide_side _ _ _, State.onSide_side_other _ _ _, rfl, rfl, rfl⟩

theorem State.Developed.copies (h : s.Developed t x add rs) : t.copies x = s.copies x := by
  unfold State.copies; rw [h.side]

theorem State.Developed.geometry (h : s.Developed t x add rs) : (t.side x).dev.geometry = (s.side x).dev.geometry := by rw [h.side]

theorem State.writeRows_developed (x : Side) (n : SlotNo) (rows : List (Nat × List Pixel)) (s : State) :
    s.Developed (State.writeRows x n rows s) x id (rows.map (fun r => { slot := n, row := r.1, pixels := r.2 })) := by
  induction rows generalizing s with
  | nil => exact .refl s x
  | cons r rows ih =>
    have one : s.Developed (s.writeFrameWords x (frameAddr x n r.1 0) (bytesToWords (rowBytes r.2))) x id [⟨n, r.1, r.2⟩] :=
      ⟨rfl, rfl, rfl, rfl, rfl⟩
    exact one.trans (ih _)

/-- The bright threshold of the frame in flight (R65). -/
def State.thresholdOf (s : State) (x : Side) (inp : FrameInputs) : Nat := brightThreshold (s.profileOf x inp.bank).tGlare inp.exposure.total

/-- The output rows of a completed cell row under the copies and the geometry in use. -/
def State.outputOf (s : State) (x : Side) (inp : FrameInputs) (cells : List Cell) (cy : Nat) : List SlotRow :=
  cellRowOutput ((s.side x).dev.geometry.getD .live) (s.layoutOf x)
    (toneInputsOf ((s.side x).dev.geometry.getD .live) (s.copies x) inp) inp cells cy

theorem State.developCellRow_developed (x : Side) (inp : FrameInputs) (cells : List Cell) (cy : Nat) (s : State) :
    s.Developed (State.developCellRow x inp cells cy s) x (addCellRow (s.thresholdOf x inp) cy cells) (s.outputOf x inp cells cy) := by
  unfold State.developCellRow State.outputOf cellRowOutput
  dsimp only
  cases inp.slot with
  | none => exact .onSide s x _
  | some n => exact (State.Developed.onSide s x _).trans (State.writeRows_developed x n _ _)

/-- The accumulators with the completed cell rows added in order. -/
def addCellRows (theta : Nat) (cells : Nat → List Cell) (cys : List Nat) (zones : List ZoneAcc) : List ZoneAcc :=
  cys.foldl (fun zones cy => addCellRow theta cy (cells cy) zones) zones

theorem State.developCellRows_developed (x : Side) (inp : FrameInputs) (cells : Nat → List Cell) (cys : List Nat) (s : State) :
    s.Developed (cys.foldl (fun s cy => State.developCellRow x inp (cells cy) cy s) s) x (addCellRows (s.thresholdOf x inp) cells cys)
      (cys.flatMap (fun cy => s.outputOf x inp (cells cy) cy)) := by
  induction cys generalizing s with
  | nil => exact .refl s x
  | cons cy cys ih =>
    have first := State.developCellRow_developed x inp (cells cy) cy s
    have rest := ih (State.developCellRow x inp (cells cy) cy s)
    have hthreshold : (State.developCellRow x inp (cells cy) cy s).thresholdOf x inp = s.thresholdOf x inp := by
      unfold State.thresholdOf State.profileOf; rw [first.copies]
    have houtput : ∀ cs cy', (State.developCellRow x inp (cells cy) cy s).outputOf x inp cs cy' = s.outputOf x inp cs cy' := by
      intro cs cy'
      unfold State.outputOf State.layoutOf; rw [first.copies, first.geometry]
    rw [hthreshold] at rest
    simp only [houtput] at rest
    exact first.trans rest

/-! ## The accumulators (R65) -/

theorem addCellRow_getElem? (theta cy : Nat) (cells : List Cell) (zones : List ZoneAcc) (i : Nat) :
    (addCellRow theta cy cells zones)[i]? =
      zones[i]?.map (fun a => if i / 12 = cy / 80 then a.addCells theta ((cells.drop (80 * (i % 12))).take 80) else a) := by
  simp only [addCellRow, List.getElem?_map, List.getElem?_zipIdx, Option.map_map, Nat.zero_add]
  rfl

/-- The cells of zone `i` in the cell rows of a list, row by row. -/
def zoneParts (cells : Nat → List Cell) (cys : List Nat) (i : Nat) : List (List Cell) :=
  (cys.filter (fun cy => decide (i / 12 = cy / 80))).map (fun cy => ((cells cy).drop (80 * (i % 12))).take 80)

theorem addCellRows_getElem? (theta : Nat) (cells : Nat → List Cell) (cys : List Nat) (zones : List ZoneAcc) (i : Nat) (a : ZoneAcc)
    (h : zones[i]? = some a) : (addCellRows theta cells cys zones)[i]? = some
      { green := a.green + ((zoneParts cells cys i).map (fun cs => (cs.map Cell.g).sum)).sum,
        bright := a.bright + ((zoneParts cells cys i).map (fun cs => cs.countP (fun c => decide (theta ≤ c.g)))).sum } := by
  induction cys generalizing zones a with
  | nil => exact h
  | cons cy cys ih =>
    have hrow := addCellRow_getElem? theta cy (cells cy) zones i
    rw [h, Option.map_some] at hrow
    have hall := ih _ _ hrow
    have hcons : addCellRows theta cells (cy :: cys) zones = addCellRows theta cells cys (addCellRow theta cy (cells cy) zones) := rfl
    rw [hcons]
    by_cases hz : i / 12 = cy / 80
    · rw [if_pos hz] at hall
      simpa [zoneParts, hz, ZoneAcc.addCells, Nat.add_assoc] using hall
    · rw [if_neg hz] at hall
      simpa [zoneParts, hz] using hall

/-! ## The words of the output rows (R71, R73, R76) -/

theorem State.mem_outputOf {inp : FrameInputs} {cells : Nat → List Cell} {cys : List Nat} {r : SlotRow} :
    r ∈ cys.flatMap (fun cy => s.outputOf x inp (cells cy) cy) ↔ ∃ cy ∈ cys, inp.slot = some r.slot ∧
      ∃ p ∈ framePanes ((s.side x).dev.geometry.getD .live) (s.layoutOf x) inp, ∃ yp, yp < p.1.height ∧ p.1.sourceRow yp = cy ∧
        r.row = p.1.firstRow + yp ∧ r.pixels =
          p.1.row (toneInputsOf ((s.side x).dev.geometry.getD .live) (s.copies x) inp) p.2 (cells cy) cy yp := by
  simp only [List.mem_flatMap, State.outputOf, mem_cellRowOutput]

/-- The words of a row that the line writes, where the cell rows `cys` are completed. -/
theorem State.Developed.read_in {inp : FrameInputs} {cells : Nat → List Cell} {cys : List Nat}
    (h : s.Developed t x add (cys.flatMap (fun cy => s.outputOf x inp (cells cy) cy))) {m : SlotNo} {p : Pane} {ms : List Marker}
    {cy yp w : Nat} {g : Geometry} (hg : (s.side x).dev.geometry.getD .live = g) (hslot : inp.slot = some m) (hcy : cy ∈ cys)
    (hp : (p, ms) ∈ framePanes g (s.layoutOf x) inp) (hyp : yp < p.height) (hsrc : p.sourceRow yp = cy) (hw : w < 270) :
    ∃ v : BitVec 64, Mem.read frameDefault t.frameStore.mem (frameAddr x m (p.firstRow + yp) w) = encodeWord 72 v ∧
      ∀ j, j < 8 → v.extractLsb' (8 * j) 8 = ((p.rowColour ms yp).getD
        (developPixel (toneInputsOf g (s.copies x) inp) (cells cy) (p.sourceCol ((8 * w + j) / 3)) cy)).channel ((8 * w + j) % 3) := by
  subst hg
  obtain ⟨v, hv, hbytes⟩ := rowWords_getElem?
    (p.length_row (toneInputsOf ((s.side x).dev.geometry.getD .live) (s.copies x) inp) ms (cells cy) cy yp) hw
  refine ⟨v, ?_, fun j hj => hbytes j _ hj (p.row_getElem? _ _ _ _ _ _ (by omega))⟩
  rw [h.mem]
  refine writtenRows_in hw (fun r hr => ?_) (fun r hr => ?_) (fun r hr hy => ?_) hv _ (.inl ?_)
  · obtain ⟨_, _, _, q, _, z, _, _, _, hpx⟩ := State.mem_outputOf.mp hr
    rw [hpx, Pane.length_row]
  · obtain ⟨_, _, hn, _⟩ := State.mem_outputOf.mp hr
    exact Option.some.inj (hn.symm.trans hslot)
  · obtain ⟨cy', _, _, q, hq, z, hz, hsrc', hrow', hpx⟩ := State.mem_outputOf.mp hr
    obtain ⟨hqp, rfl⟩ := framePanes_row_inj hq hp hz hyp (hrow'.symm.trans hy)
    subst hqp
    rw [hpx, ← hsrc', ← hsrc]
  · refine ⟨⟨m, p.firstRow + yp, _⟩, State.mem_outputOf.mpr ⟨cy, hcy, hslot, (p, ms), hp, yp, hyp, hsrc, rfl, rfl⟩, rfl⟩

theorem developPixel_channel (t : ToneInputs) (cells : List Cell) (cx cy k : Nat) :
    (developPixel t cells cx cy).channel k =
      (match k with
      | 0 => developChannel t.curve t.digital t.wbR (t.attenuations.getD (12 * (cy / 80) + cx / 80) 0)
          (cells.getD cx { r := 0, g := 0, b := 0 }).r
      | 1 => developChannel t.curve t.digital t.wbG (t.attenuations.getD (12 * (cy / 80) + cx / 80) 0)
          (cells.getD cx { r := 0, g := 0, b := 0 }).g
      | _ => developChannel t.curve t.digital t.wbB (t.attenuations.getD (12 * (cy / 80) + cx / 80) 0)
          (cells.getD cx { r := 0, g := 0, b := 0 }).b) := by
  match k with
  | 0 | 1 | _ + 2 => rfl

end Sys2Proof.Machine
end

section
/-! O15: an active line writes only the rows it completes (R3, R59, R62 to R76). -/

namespace Sys2Proof.Machine

/-- An active line at the port with the rows that the developer then holds; nothing is developed yet (R3, R59). -/
def State.lineHeld (s : State) (x : Side) (recent : List (List Nat)) : State :=
  s.onSide x (fun d => { d with
    port := { d.port with lineCount := d.port.lineCount + 1 }
    dev := { d.dev with recent := recent } })

section
variable {s t : State} {x : Side} {recent : List (List Nat)}

@[simp] theorem State.lineHeld_side (s : State) (x : Side) (recent : List (List Nat)) : (s.lineHeld x recent).side x =
    { s.side x with
      port := { (s.side x).port with lineCount := (s.side x).port.lineCount + 1 }
      dev := { (s.side x).dev with recent := recent } } := State.onSide_side _ _ _

@[simp] theorem State.lineHeld_copies : (s.lineHeld x recent).copies x = s.copies x := by simp [State.copies]

theorem State.lineHeld_outputOf (inp : FrameInputs) (cells : List Cell) (cy : Nat) :
    (s.lineHeld x recent).outputOf x inp cells cy = s.outputOf x inp cells cy := by
  simp [State.outputOf, State.layoutOf]

theorem State.lineHeld_thresholdOf (inp : FrameInputs) : (s.lineHeld x recent).thresholdOf x inp = s.thresholdOf x inp := by
  simp [State.thresholdOf, State.profileOf]

/-! ## What the line does, with and without a frame in flight -/

/-- The rows held with a new active line, newest first (R59, R62). -/
def State.rowsHeld (s : State) (x : Side) (inp : FrameInputs) (ws : List Sample) : List (List Nat) :=
  (ws.map (blackLevel ((s.sensorOf x).black inp.tempClass)) :: (s.side x).dev.recent).take 4

theorem State.receiveLine_active {ws : List Sample} (hp : (s.side x).port.phase = .lines) (hlen : ws.length = 1920)
    (hn : (s.side x).port.lineCount < 2560) : s.receiveLine x ws =
      (s.onSide x (fun d => { d with port := { d.port with lineCount := (s.side x).port.lineCount + 1 } })).developLine x
        (s.side x).port.lineCount ws := by
  rw [State.receiveLine, hp]
  exact if_neg (by omega)

theorem State.receiveLine_inFlight {ws : List Sample} {f : FrameNo} {inp : FrameInputs} (hp : (s.side x).port.phase = .lines)
    (hlen : ws.length = 1920) (hn : (s.side x).port.lineCount < 2560) (hf : (s.side x).dev.frame = some f)
    (hi : (s.side x).dev.inputs = some inp) :
    (s.lineHeld x (s.rowsHeld x inp ws)).Developed (s.receiveLine x ws) x
      (addCellRows (s.thresholdOf x inp) (cellRow inp.defects (s.rowsHeld x inp ws) (s.side x).port.lineCount)
        (completedRows inp.defects (s.side x).port.lineCount))
      ((completedRows inp.defects (s.side x).port.lineCount).flatMap (fun cy =>
        s.outputOf x inp (cellRow inp.defects (s.rowsHeld x inp ws) (s.side x).port.lineCount cy) cy)) := by
  rw [State.receiveLine_active hp hlen hn, ← s.lineHeld_thresholdOf (recent := s.rowsHeld x inp ws)]
  simp only [← s.lineHeld_outputOf (recent := s.rowsHeld x inp ws)]
  have hstart : (s.onSide x (fun d => { d with port := { d.port with lineCount := (s.side x).port.lineCount + 1 } })).developLine x
      (s.side x).port.lineCount ws = (completedRows inp.defects (s.side x).port.lineCount).foldl
        (fun u cy => State.developCellRow x inp
          (cellRow inp.defects (s.rowsHeld x inp ws) (s.side x).port.lineCount cy) cy u) (s.lineHeld x (s.rowsHeld x inp ws)) := by
    unfold State.developLine
    simp only [State.onSide_side, hf, hi, State.sensorOf, State.copies, State.onSide_onSide]
    rfl
  rw [hstart]
  exact State.developCellRows_developed x inp _ _ _

theorem State.receiveLine_notInFlight {ws : List Sample} (hp : (s.side x).port.phase = .lines)
    (hlen : ws.length = 1920) (hn : (s.side x).port.lineCount < 2560)
    (h : (s.side x).dev.frame = none ∨ (s.side x).dev.inputs = none) :
    (s.lineHeld x (s.side x).dev.recent).Developed (s.receiveLine x ws) x id [] := by
  have hsame : s.receiveLine x ws = s.lineHeld x (s.side x).dev.recent := by
    rw [State.receiveLine_active hp hlen hn]
    unfold State.developLine
    simp only [State.onSide_side]
    split
    · next hf hi => rw [hf, hi] at h; simp at h
    · rfl
  rw [hsame]
  exact .refl _ _

theorem State.mem_rowsCompleted {f : FrameNo} {inp : FrameInputs} (hf : (s.side x).dev.frame = some f)
    (hi : (s.side x).dev.inputs = some inp) {n : Nat} {cells : Nat → List Cell} {r : SlotRow}
    (hr : r ∈ (completedRows inp.defects n).flatMap (fun cy => s.outputOf x inp (cells cy) cy)) :
    (r.slot, r.row) ∈ s.rowsCompleted x n ∧ r.pixels.length = 720 := by
  obtain ⟨cy, hcy, hslot, p, hp, yp, hyp, hsrc, hrow, hpx⟩ := State.mem_outputOf.mp hr
  refine ⟨?_, by rw [hpx, Pane.length_row]⟩
  unfold State.rowsCompleted
  simp only [hf, hi, hslot]
  refine List.mem_flatten.mpr ⟨_, List.mem_map.mpr ⟨cy, hcy, rfl⟩, List.mem_flatten.mpr ⟨_, List.mem_map.mpr ⟨p, hp, rfl⟩, ?_⟩⟩
  rw [hrow]
  exact List.mem_map.mpr ⟨yp, List.mem_filter.mpr ⟨List.mem_range.mpr hyp, decide_eq_true hsrc⟩, rfl⟩

/-- Every active line: which rows may change, and that nothing but the developer's does. -/
theorem State.receiveLine_developed {ws : List Sample} (hp : (s.side x).port.phase = .lines) (hlen : ws.length = 1920)
    (hn : (s.side x).port.lineCount < 2560) : ∃ recent add rs, (s.lineHeld x recent).Developed (s.receiveLine x ws) x add rs ∧
      ∀ r ∈ rs, (r.slot, r.row) ∈ s.rowsCompleted x (s.side x).port.lineCount ∧ r.pixels.length = 720 := by
  cases hf : (s.side x).dev.frame with
  | none => exact ⟨_, _, _, State.receiveLine_notInFlight hp hlen hn (.inl hf), fun r hr => absurd hr List.not_mem_nil⟩
  | some f =>
    cases hi : (s.side x).dev.inputs with
    | none => exact ⟨_, _, _, State.receiveLine_notInFlight hp hlen hn (.inr hi), fun r hr => absurd hr List.not_mem_nil⟩
    | some inp => exact ⟨_, _, _, State.receiveLine_inFlight hp hlen hn hf hi, fun r hr => State.mem_rowsCompleted hf hi hr⟩

theorem State.Developed.words_stand {add : List ZoneAcc → List ZoneAcc} {rs : List SlotRow} {n : Nat}
    (h : (s.lineHeld x recent).Developed t x add rs)
    (hrs : ∀ r ∈ rs, (r.slot, r.row) ∈ s.rowsCompleted x n ∧ r.pixels.length = 720) (a : Nat)
    (ha : ∀ r ∈ s.rowsCompleted x n, a < frameAddr x r.1 r.2 0 ∨ frameAddr x r.1 r.2 0 + 270 ≤ a) :
    Mem.read frameDefault t.frameStore.mem a = Mem.read frameDefault s.frameStore.mem a := by
  rw [h.mem]
  exact writtenRows_out (fun r hr => (hrs r hr).2) (fun r hr => ha _ (hrs r hr).1) _

/-! ## The bytes of an output row (R66 to R69, R73) -/

/-- A channel of an output pixel, where the curve and the attenuation are those of the frame's geometry. -/
theorem toneInputsOf_channel (g : Geometry) (inp : FrameInputs) (cells : List Cell) (colour : Option Pixel) (cx cy k : Nat) (cell : Cell)
    (curve : List Nat) (z : Int) : cell = cells.getD cx { r := 0, g := 0, b := 0 } →
    curve = (match g with
      | .service => (List.range 65).map (fun k => min 1023 (16 * k))
      | .live => ((s.copies x).get (TableId.tone (s.profileOf x inp.bank).toneSlot)).map BitVec.toNat) →
    z = (match g with
      | .service => 0
      | .live => inp.attenuations.getD (12 * (cy / 80) + cx / 80) 0) →
    (colour.getD (developPixel (toneInputsOf g (s.copies x) inp) cells cx cy)).channel k = (match colour, k with
      | some c, 0 => c.r
      | some c, 1 => c.g
      | some c, _ => c.b
      | none, 0 => developChannel curve inp.exposure.digital (s.sensorOf x).wbR z cell.r
      | none, 1 => developChannel curve inp.exposure.digital (s.sensorOf x).wbG z cell.g
      | none, _ => developChannel curve inp.exposure.digital (s.sensorOf x).wbB z cell.b) := by
  rintro rfl rfl rfl
  cases colour with
  | some c => match k with | 0 | 1 | _ + 2 => rfl
  | none =>
    rw [Option.getD_none, developPixel_channel]
    cases g <;> match k with | 0 | 1 | _ + 2 => rfl

end

/-- Settles O15: the line is the fold of its completed cell rows, each of which adds to the accumulators and writes its output rows;
an output row belongs to one pane and one cell row, so the word read back is the one written for it. -/
theorem activeLineWritesOnlyTheRowsItCompletes : Obligations.ActiveLineWritesOnlyTheRowsItCompletes := by
  unfold Obligations.ActiveLineWritesOnlyTheRowsItCompletes
  refine ⟨fun x ws s hreset hp hlen hn => ⟨s.receiveLine x ws, ?_, ?_⟩, fun defects n cy h => ?_, zero_mem_completedRows,
    getElem?_cellRow, developChannel_eq, fun l inp => ⟨rfl, framePanes_live l inp⟩, Pane.covered_iff, Pane.rowColour_spec⟩
  · rw [exec_line, State.take_eq s _ hreset]
  · obtain ⟨recent, add, rs, h, hrs⟩ := State.receiveLine_developed hp hlen hn
    have hside := h.side
    rw [State.lineHeld_side] at hside
    refine ⟨by rw [hside], by rw [hside], by rw [hside], h.other.trans (State.onSide_side_other _ _ _), h.words_stand hrs, h.store, ?_, ?_⟩
    · have hframe := congrArg (fun m : State => { m with sides := s.sides }) h.frame
      exact hframe
    · intro f inp g n theta cells hf hi hg hline htheta hcells
      subst hline
      have hd := State.receiveLine_inFlight hp hlen hn hf hi
      have hrecent : ((s.receiveLine x ws).side x).dev.recent = s.rowsHeld x inp ws := by rw [hd.side, State.lineHeld_side]
      have hall : cells = cellRow inp.defects (s.rowsHeld x inp ws) (s.side x).port.lineCount := funext fun cy => by rw [hcells, hrecent]
      rw [← hall] at hd
      refine ⟨hrecent, fun i a part hz hpart => ?_, fun m cy yp w p ms hslot hcy hpane hyp hsrc hw => ?_⟩
      · subst hpart htheta
        rw [hd.side, State.lineHeld_side]
        exact addCellRows_getElem? _ cells _ _ i a hz
      · have hgeometry : ((s.lineHeld x (s.rowsHeld x inp ws)).side x).dev.geometry.getD .live = g := by
          rw [State.lineHeld_side]; exact hg.symm
        simp only [← s.lineHeld_outputOf (recent := s.rowsHeld x inp ws)] at hd
        obtain ⟨v, hv, hbytes⟩ := hd.read_in hgeometry hslot hcy (by rw [State.layoutOf, State.lineHeld_copies]; exact hpane) hyp hsrc hw
        refine ⟨v, hv, fun j cx cell curve z hj hcx hcell' hcurve hz => (hbytes j hj).trans ?_⟩
        rw [State.lineHeld_copies]
        subst hcx
        exact toneInputsOf_channel g inp (cells cy) _ _ cy _ cell curve z hcell' hcurve hz
  · rw [mem_completedRows]; omega

end Sys2Proof.Machine
end

section
/-! The log of a level and the power of a step count (R23 to R26), octave by octave: both tables are entered at a place within an octave, so
their growth is the growth of the tables with what happens where one octave ends. -/

namespace Sys2Proof.Machine

/-! ## The tables (R23, R24) -/

theorem lg_mono : ∀ j < 64, ∀ i ≤ j, lg i ≤ lg j := by decide

theorem lg_le (i : Nat) : lg i ≤ 253 := by
  by_cases h : i < 64
  · exact lg_mono 63 (by decide) i (by omega)
  · have hout : lg i = 0 := List.getD_eq_default _ _ (by simpa [logTable] using h)
    omega

/-- Entry `f` lies between the value at the octave's start and that of the next octave's. -/
theorem mt_bounds : ∀ f < 256, 32768 ≤ mt f ∧ mt f < 65536 := by decide +kernel

theorem mt_succ : ∀ f < 255, mt f ≤ mt (f + 1) := by decide +kernel

/-- The log table, entered where an entry of the mantissa table lies, gives at most that entry's place. -/
theorem lg_mt_le : ∀ f < 256, lg ((mt f / 16 - 2048) / 32) ≤ f := by decide +kernel

/-- The mantissa of a log entry exceeds the entry's own level by at most 1/512. -/
theorem mt_lg_le : ∀ i < 64, 512 * mt (lg i) ≤ 513 * (16 * (2048 + 32 * i)) := by decide +kernel

end Sys2Proof.Machine
end

section
/-! The log of a level and the power of a step count (R25, R26), and what the split of an exposure rests on (R38). -/

namespace Sys2Proof.Machine

variable {m n p e q f : Nat}

/-! ## The log of a level (R25) -/

/-- The place in the log table of a level in octave `p`: the step `i` of R25. -/
def logIndex (p m : Nat) : Nat := (max m 1 * 2 ^ (11 - p) - 2048) / 32

theorem logLevel_octave (h1 : 2 ^ p ≤ max m 1) (h2 : max m 1 < 2 ^ (p + 1)) : logLevel m = 256 * p + lg (logIndex p m) := by
  have hp : Nat.log2 (max m 1) = p := (Nat.log2_eq_iff (by omega)).mpr ⟨h1, h2⟩
  simp only [logLevel, logIndex, hp]

/-- Every level of the sensor lies in one of the 12 octaves, and its log is told there. -/
theorem exists_octave (hm : m ≤ 4095) :
    ∃ p ≤ 11, 2 ^ p ≤ max m 1 ∧ max m 1 < 2 ^ (p + 1) ∧ logLevel m = 256 * p + lg (logIndex p m) := by
  have h1 : 2 ^ Nat.log2 (max m 1) ≤ max m 1 := Nat.log2_self_le (by omega)
  have h2 : max m 1 < 2 ^ (Nat.log2 (max m 1) + 1) := Nat.lt_log2_self
  have hp : Nat.log2 (max m 1) < 12 := (Nat.log2_lt (by omega)).mpr (by omega)
  exact ⟨_, by omega, h1, h2, logLevel_octave h1 h2⟩

/-- Within an octave the shifted level runs from 2048 to 4095. -/
theorem shifted_bounds (hp : p ≤ 11) (h1 : 2 ^ p ≤ max m 1) (h2 : max m 1 < 2 ^ (p + 1)) :
    2048 ≤ max m 1 * 2 ^ (11 - p) ∧ max m 1 * 2 ^ (11 - p) < 4096 := by
  have hlow : 2 ^ p * 2 ^ (11 - p) = 2048 := by rw [← pow_add, Nat.add_sub_cancel' hp]; rfl
  have hhigh : 2 ^ (p + 1) * 2 ^ (11 - p) = 4096 := by rw [pow_succ, Nat.mul_right_comm, hlow]
  exact ⟨hlow ▸ Nat.mul_le_mul_right _ h1, hhigh ▸ Nat.mul_lt_mul_of_pos_right h2 (Nat.two_pow_pos _)⟩

theorem logIndex_lt (hp : p ≤ 11) (h1 : 2 ^ p ≤ max m 1) (h2 : max m 1 < 2 ^ (p + 1)) : logIndex p m < 64 := by
  have := shifted_bounds hp h1 h2
  unfold logIndex
  omega

theorem logIndex_mono (h : m ≤ n) : logIndex p m ≤ logIndex p n :=
  Nat.div_le_div_right (Nat.sub_le_sub_right (Nat.mul_le_mul_right _ (max_le_max h (Nat.le_refl 1))) _)

theorem logLevel_le (hm : m ≤ 4095) : logLevel m ≤ 3069 := by
  obtain ⟨p, hp, -, -, hlog⟩ := exists_octave hm
  have := lg_le (logIndex p m)
  omega

/-- L grows within an octave with the table, and from one octave to the next by more than the table holds. -/
theorem logLevel_mono (h : m ≤ n) (hn : n ≤ 4095) : logLevel m ≤ logLevel n := by
  obtain ⟨p, hp, hp1, hp2, hm'⟩ := exists_octave (h.trans hn)
  obtain ⟨q, hq, hq1, hq2, hn'⟩ := exists_octave hn
  have hpq : p < q + 1 := (Nat.pow_lt_pow_iff_right (by decide : 1 < 2)).mp (by omega)
  rw [hm', hn']
  rcases Nat.lt_or_eq_of_le (Nat.lt_succ_iff.mp hpq) with hlt | rfl
  · have := lg_le (logIndex p m)
    omega
  · have := lg_mono _ (logIndex_lt hq hq1 hq2) _ (logIndex_mono (p := p) h)
    omega

/-- Settles O23: the octave of a level is that of `Nat.log2`, and within it L is the table. -/
theorem logOfALevelFollowsItsRule : Obligations.LogOfALevelFollowsItsRule :=
  ⟨fun _ _ _ h1 h2 => logLevel_octave h1 h2, fun _ => logLevel_le, fun _ _ => logLevel_mono,
    by decide, by decide, by decide, by decide, by decide, by decide⟩

/-! ## The power of a step count (R26) -/

theorem powSteps_octave (hf : f < 256) : powSteps (256 * q + f) = mt f * 2 ^ q / 32768 := by
  have hmod : (256 * q + f) % 256 = f := by omega
  have hdiv : (256 * q + f) / 256 = q := by omega
  rw [powSteps, hmod, hdiv]

/-- In octave `q` the power lies from `2 ^ q` up to, and without, `2 ^ (q + 1)`. -/
theorem powSteps_bounds (hf : f < 256) : 2 ^ q ≤ powSteps (256 * q + f) ∧ powSteps (256 * q + f) < 2 ^ (q + 1) := by
  obtain ⟨h1, h2⟩ := mt_bounds f hf
  rw [powSteps_octave hf, Nat.le_div_iff_mul_le (by decide), Nat.div_lt_iff_lt_mul (by decide), pow_succ]
  have := Nat.mul_le_mul_right (2 ^ q) h1
  have := Nat.mul_lt_mul_of_pos_right h2 (Nat.two_pow_pos q)
  omega

/-- P grows within an octave with the table, and where an octave ends the next begins with twice the table's first entry. -/
theorem powSteps_mono : Monotone powSteps := by
  refine monotone_nat_of_le_succ fun e => ?_
  obtain ⟨q, f, hf, rfl⟩ : ∃ q f, f < 256 ∧ e = 256 * q + f := ⟨e / 256, e % 256, Nat.mod_lt _ (by decide), by omega⟩
  by_cases hlast : f = 255
  · subst hlast
    exact (powSteps_bounds hf).2.le.trans (powSteps_bounds (q := q + 1) (f := 0) (by decide)).1
  · rw [Nat.add_assoc, powSteps_octave hf, powSteps_octave (by omega)]
    exact Nat.div_le_div_right (Nat.mul_le_mul_right _ (mt_succ f (by omega)))

/-- The table's 1/512 over a log entry is all that P(L(M)) adds: within an octave both scale alike. -/
theorem powSteps_logLevel_le (hm : m ≤ 4095) : 512 * powSteps (logLevel m) ≤ 513 * max m 1 := by
  obtain ⟨p, hp, h1, h2, hlog⟩ := exists_octave hm
  have hlt := logIndex_lt hp h1 h2
  have hlow : 2048 + 32 * logIndex p m ≤ max m 1 * 2 ^ (11 - p) := by
    have := (shifted_bounds hp h1 h2).1
    unfold logIndex
    omega
  have hlg := lg_le (logIndex p m)
  have hpow : powSteps (logLevel m) * 32768 ≤ mt (lg (logIndex p m)) * 2 ^ p := by
    rw [hlog, powSteps_octave (by omega)]
    exact Nat.div_mul_le_self _ _
  have hscale : max m 1 * 2 ^ (11 - p) * 2 ^ p = max m 1 * 2048 := by
    rw [Nat.mul_assoc, ← pow_add, Nat.sub_add_cancel hp]; rfl
  have hchain : 512 * powSteps (logLevel m) * 32768 ≤ 513 * max m 1 * 32768 := calc
    512 * powSteps (logLevel m) * 32768 ≤ 512 * (mt (lg (logIndex p m)) * 2 ^ p) := by
      rw [Nat.mul_assoc]
      exact Nat.mul_le_mul_left _ hpow
    _ = 512 * mt (lg (logIndex p m)) * 2 ^ p := by ring
    _ ≤ 513 * (16 * (max m 1 * 2 ^ (11 - p))) * 2 ^ p := by
      have := mt_lg_le _ hlt
      exact Nat.mul_le_mul_right _ (by omega)
    _ = 513 * 16 * (max m 1 * 2 ^ (11 - p) * 2 ^ p) := by ring
    _ = 513 * max m 1 * 32768 := by rw [hscale]; ring
  exact Nat.le_of_mul_le_mul_right hchain (by decide)

/-- Settles O24: P is told octave by octave, and the tables bound what it adds to a level's log. -/
theorem powerOfStepsFollowsItsRule : Obligations.PowerOfStepsFollowsItsRule :=
  ⟨fun _ _ _ he hf => he ▸ powSteps_octave hf, by decide, by decide, by decide +kernel, fun _ _ h => powSteps_mono h,
    fun _ => powSteps_logLevel_le, by decide +kernel⟩

/-! ## The requested exposure (R36) -/

/-- R36's division by 16 truncates toward zero: what it gives on either side of 0. -/
theorem tdiv_of_sign {a b : Int} (hb : 0 ≤ b) :
    (0 ≤ a → (a * b).tdiv 16 = a * b / 16) ∧ (a < 0 → (a * b).tdiv 16 = -(-a * b / 16)) := by
  refine ⟨fun ha => Int.tdiv_eq_ediv_of_nonneg (Int.mul_nonneg ha hb), fun ha => ?_⟩
  rw [← Int.tdiv_eq_ediv_of_nonneg (Int.mul_nonneg (by omega) hb), Int.neg_mul, Int.neg_tdiv, Int.neg_neg]

/-- Settles O25, by the deadband and, outside it, by the sign of the difference. -/
theorem requestedExposureFollowsItsRule : Obligations.RequestedExposureFollowsItsRule := by
  intro p l trim diff dE m eF hdiff hin hpos hneg hdamp
  have hband : (diff.natAbs : Int) ≤ p.deadband ↔ -p.deadband ≤ diff ∧ diff ≤ p.deadband := by omega
  have hdE : dE = if (diff.natAbs : Int) ≤ p.deadband then 0
      else clamp ((diff * p.damping).tdiv 16) (-p.maxStep) p.maxStep := by
    split
    · next h => exact hin (hband.mp h)
    · next h =>
      rw [hband] at h
      obtain ⟨hnonneg, hlt⟩ := tdiv_of_sign (a := diff) hdamp
      rcases Int.lt_or_le diff 0 with hd | hd
      · rw [hneg h hd hdamp, hlt hd]; rfl
      · rw [hpos h hd hdamp, hnonneg hd]; rfl
  have hclamp : 0 ≤ clamp ((eF : Int) + dE) 0 l.eMax := le_max_left _ _
  simp only [requestedExposure, ← hdiff, ← hdE]
  exact Int.toNat_of_nonneg hclamp

/-! ## The split (R38) -/

/-- The log of a power does not exceed the step count: octaves agree, and within one the tables do (`lg_mt_le`). -/
theorem logLevel_powSteps_le (he : e < 3072) : logLevel (powSteps e) ≤ e := by
  obtain ⟨q, f, hf, rfl⟩ : ∃ q f, f < 256 ∧ e = 256 * q + f := ⟨e / 256, e % 256, Nat.mod_lt _ (by decide), by omega⟩
  have hq : q ≤ 11 := by omega
  obtain ⟨h1, h2⟩ := powSteps_bounds (q := q) hf
  have hmax : max (powSteps (256 * q + f)) 1 = powSteps (256 * q + f) := max_eq_left (Nat.one_le_two_pow.trans h1)
  have hpow : powSteps (256 * q + f) * 32768 ≤ mt f * 2 ^ q := by
    rw [powSteps_octave hf]
    exact Nat.div_mul_le_self _ _
  have hscale : powSteps (256 * q + f) * 2 ^ (11 - q) ≤ mt f / 16 := by
    rw [Nat.le_div_iff_mul_le (by decide)]
    refine Nat.le_of_mul_le_mul_right (c := 2 ^ q) ?_ (Nat.two_pow_pos q)
    calc powSteps (256 * q + f) * 2 ^ (11 - q) * 16 * 2 ^ q
        = powSteps (256 * q + f) * (2 ^ (11 - q) * 2 ^ q * 16) := by ring
      _ = powSteps (256 * q + f) * 32768 := by rw [← pow_add, Nat.sub_add_cancel hq]; rfl
      _ ≤ mt f * 2 ^ q := hpow
  have hindex : logIndex q (powSteps (256 * q + f)) ≤ (mt f / 16 - 2048) / 32 := by
    rw [logIndex, hmax]
    exact Nat.div_le_div_right (Nat.sub_le_sub_right hscale _)
  have hentry : (mt f / 16 - 2048) / 32 < 64 := by
    have := mt_bounds f hf
    omega
  rw [logLevel_octave (hmax.symm ▸ h1) (hmax.symm ▸ h2)]
  have := (lg_mono _ hentry _ hindex).trans (lg_mt_le f hf)
  omega

/-- A level that the power of a step count reaches has a log within the step count. -/
theorem logLevel_le_of_le_powSteps (hm : m ≤ 4095) (h : m ≤ powSteps e) : logLevel m ≤ e := by
  by_cases he : e < 3072
  · have htop : powSteps e ≤ 4095 := (powSteps_mono (Nat.le_of_lt_succ he)).trans (by decide)
    exact (logLevel_mono h htop).trans (logLevel_powSteps_le he)
  · exact (logLevel_le hm).trans (by omega)

/-- The integration part takes no more than the exposure asked for. -/
theorem logLevel_integ_le {l : Limits} (hl : l.imaxEff ≤ 4095) (e : Nat) : logLevel (splitExposure l e).integ ≤ e := by
  have hlog : logLevel 1 = 0 := by decide
  change logLevel (max 1 (min l.imaxEff (powSteps e))) ≤ e
  rcases Nat.le_total (min l.imaxEff (powSteps e)) 1 with h | h
  · rw [max_eq_left h, hlog]
    exact Nat.zero_le e
  · rw [max_eq_right h]
    exact logLevel_le_of_le_powSteps ((min_le_left _ _).trans hl) (min_le_right _ _)

theorem splitExposure_total_le {l : Limits} (hl : l.imaxEff ≤ 4095) (e : Nat) : (splitExposure l e).total ≤ e := by
  have hinteg := logLevel_integ_le hl e
  have ha : (splitExposure l e).analog ≤ e - logLevel (splitExposure l e).integ := (min_le_right _ _).trans (Nat.mul_div_le _ _)
  have hd : (splitExposure l e).digital ≤ e - logLevel (splitExposure l e).integ - (splitExposure l e).analog := min_le_right _ _
  have htotal : (splitExposure l e).total =
      logLevel (splitExposure l e).integ + (splitExposure l e).analog + (splitExposure l e).digital := rfl
  omega

/-- Settles O26: the parts are the steps of `splitExposure`, and their sum keeps to the request by `splitExposure_total_le`. -/
theorem splitFollowsItsRuleAndItsLimits : Obligations.SplitFollowsItsRuleAndItsLimits := by
  intro l e
  refine ⟨rfl, rfl, rfl, rfl, le_max_left _ _, min_le_left _ _, min_le_left _ _, fun h => max_le h (min_le_left _ _), fun h => ?_,
    fun h => splitExposure_total_le (by omega) e⟩
  change 32 ∣ min l.aMax (32 * ((e - logLevel (splitExposure l e).integ) / 32))
  rcases min_choice l.aMax (32 * ((e - logLevel (splitExposure l e).integ) / 32)) with hm | hm <;> rw [hm]
  · exact h
  · exact Nat.dvd_mul_right _ _

end Sys2Proof.Machine
end

section
/-! The reports FRAME_HISTORY and EXPOSURE_STATE: the words of their layouts (R49, R199, R200, R214). -/

namespace Sys2Proof.Machine

/-! ## Words of a report (R210, R214) -/

theorem wordsOf32_eq (v : BitVec 32) : wordsOf32 v = [v.extractLsb' 0 16, v.extractLsb' 16 16] := by
  have hlow : v.setWidth 16 = v.extractLsb' 0 16 := by ext i hi; simp [BitVec.getElem_setWidth]
  have hhigh : (v >>> 16).setWidth 16 = v.extractLsb' 16 16 := by ext i hi; simp [BitVec.getElem_setWidth]
  rw [wordsOf32, hlow, hhigh]

theorem pack_eq (vs : List (Nat × Nat)) (n : Nat) (h : (vs.map (fun v => v.1 * 2 ^ v.2)).sum = n) :
    pack vs = BitVec.ofNat 16 n := by rw [pack, h, wordOf]

theorem bit_mul (b : Bool) (n : Nat) : bit b * n = if b then n else 0 := by cases b <;> simp [bit]

/-! ## FRAME_HISTORY (R200) -/

/-- The flags, the temperature class and the bank of a record. -/
theorem frameRecord_flags (r : FrameRecord) :
    pack [(bit r.gap, 0), (bit r.matched, 1), (bit r.metered.isSome, 2), (bit r.glare.isSome, 3),
        (bit (match r.glare with
          | some g => g.2
          | none => false), 4), (r.cls.code, 8), (r.bank.val, 12)] =
      BitVec.ofNat 16 ((if r.gap then 1 else 0) + (if r.matched then 2 else 0) + (if r.metered.isSome then 4 else 0) +
        (if r.glare.isSome then 8 else 0) + (if r.glare.map Prod.snd = some true then 16 else 0) +
        256 * r.cls.code + 4096 * r.bank.val) := by
  have hsuspended : bit (match r.glare with
      | some g => g.2
      | none => false) * 16 = if r.glare.map Prod.snd = some true then 16 else 0 := by
    rw [bit_mul]
    cases r.glare <;> simp
  apply pack_eq
  simp only [List.map_cons, List.map_nil, List.sum_cons, List.sum_nil, Nat.reducePow, hsuspended, bit_mul]
  omega

/-- The slot and the outcome of a record. -/
theorem frameRecord_slot (slot : Option SlotNo) (outcome : Nat) :
    pack [(match slot with
      | some n => n.num
      | none => 0, 0), (outcome, 8)] = BitVec.ofNat 16 ((slot.map SlotNo.num).getD 0 + 256 * outcome) := by
  apply pack_eq
  cases slot <;> simp [Nat.mul_comm]

/-- The metered mean and scene level and the lit count of a record, each 0 where it is absent. -/
theorem frameRecord_measures (metered : Option (Nat × Int)) (glare : Option (Nat × Bool)) :
    (match metered with
      | some m => [wordOf m.1, wordOfInt m.2]
      | none => [0, 0]) ++ [match glare with
      | some g => wordOf g.1
      | none => 0] =
    [BitVec.ofNat 16 ((metered.map Prod.fst).getD 0), BitVec.ofInt 16 ((metered.map Prod.snd).getD 0),
      BitVec.ofNat 16 ((glare.map Prod.fst).getD 0)] := by
  cases metered <;> cases glare <;> rfl

/-- The 13 words of a record in the layout of R214. -/
theorem frameRecordWords_eq (r : FrameRecord) : frameRecordWords r =
    [r.number,
     BitVec.ofNat 16 ((if r.gap then 1 else 0) + (if r.matched then 2 else 0) + (if r.metered.isSome then 4 else 0) +
       (if r.glare.isSome then 8 else 0) + (if r.glare.map Prod.snd = some true then 16 else 0) +
       256 * r.cls.code + 4096 * r.bank.val),
     BitVec.ofInt 16 r.temp, r.arrival.extractLsb' 0 16, r.arrival.extractLsb' 16 16,
     BitVec.ofNat 16 r.exposure.total, BitVec.ofNat 16 r.exposure.integ, BitVec.ofNat 16 r.exposure.analog,
     BitVec.ofNat 16 r.exposure.digital,
     BitVec.ofNat 16 ((r.slot.map SlotNo.num).getD 0 + 256 * r.outcome.code),
     BitVec.ofNat 16 ((r.metered.map Prod.fst).getD 0), BitVec.ofInt 16 ((r.metered.map Prod.snd).getD 0),
     BitVec.ofNat 16 ((r.glare.map Prod.fst).getD 0)] := by
  simp only [frameRecordWords, wordsOf32_eq, recordWords, wordOf, wordOfInt, List.cons_append, List.nil_append,
    List.cons.injEq, true_and]
  exact ⟨frameRecord_flags r, frameRecord_slot r.slot r.outcome.code, frameRecord_measures r.metered r.glare⟩

/-! ## EXPOSURE_STATE (R49) -/

/-- The mode, the current bank and the pending count. -/
theorem exposureState_mode (e : Exposure) :
    pack ([(bit e.inForce.isSome, 0), (e.pendingQueue.length, 4)] ++ (match e.mode with
        | .auto => [(0, 8), (0, 9)]
        | .forced b => [(1, 8), (b.val, 9)]) ++ [(e.bank.val, 12)]) =
      BitVec.ofNat 16 ((if e.inForce.isSome then 1 else 0) + 16 * e.pendingQueue.length + (match e.mode with
        | .auto => 0
        | .forced b => 256 + 512 * b.val) + 4096 * e.bank.val) := by
  apply pack_eq
  cases e.mode with
  | auto => simp [bit]; omega
  | forced b => simp [bit]; omega

/-- The scheduled bank, the direction and the dwell count. -/
theorem exposureState_ladder (e : Exposure) : pack [(bankCode e.scheduled, 0), (bankCode e.direction, 4), (e.dwell, 8)] =
    BitVec.ofNat 16 (bankCode e.scheduled + 16 * bankCode e.direction + 256 * e.dwell) := by
  apply pack_eq
  simp only [List.map_cons, List.map_nil, List.sum_cons, List.sum_nil]
  omega

/-- The words of the in-force record, each 0 where there is none. -/
theorem exposureState_inForce (o : Option ExpRecord) : (match o with
      | some r => recordWords r
      | none => [0, 0, 0, 0]) =
    [BitVec.ofNat 16 ((o.map ExpRecord.total).getD 0), BitVec.ofNat 16 ((o.map ExpRecord.integ).getD 0),
      BitVec.ofNat 16 ((o.map ExpRecord.analog).getD 0), BitVec.ofNat 16 ((o.map ExpRecord.digital).getD 0)] := by
  cases o <;> rfl

/-- The words of EXPOSURE_STATE in the layout of R214. -/
theorem exposureWords_eq (e : Exposure) : exposureWords e =
    [BitVec.ofNat 16 ((if e.inForce.isSome then 1 else 0) + 16 * e.pendingQueue.length + (match e.mode with
        | .auto => 0
        | .forced b => 256 + 512 * b.val) + 4096 * e.bank.val),
      BitVec.ofNat 16 (bankCode e.scheduled + 16 * bankCode e.direction + 256 * e.dwell),
      BitVec.ofNat 16 e.mismatchCount, BitVec.ofInt 16 e.trim,
      BitVec.ofNat 16 ((e.inForce.map ExpRecord.total).getD 0), BitVec.ofNat 16 ((e.inForce.map ExpRecord.integ).getD 0),
      BitVec.ofNat 16 ((e.inForce.map ExpRecord.analog).getD 0), BitVec.ofNat 16 ((e.inForce.map ExpRecord.digital).getD 0)] ++
    e.pendingQueue.flatMap (fun q => q.target :: recordWords q.record) := by
  rw [← exposureState_mode, ← exposureState_ladder]
  exact congrArg₂ (· ++ ·) (congrArg (_ :: _ :: wordOf _ :: wordOfInt _ :: ·) (exposureState_inForce e.inForce)) rfl

/-! ## The reports -/

/-- A read of one side's state takes its own rule for the side named (R199). -/
theorem State.readSide_eq (s : State) (l : Side) (p : Packet) (item : Word) (body : Side → State → Response × State) {x : Side}
    (h : s.Admits l) (hp : p.Plain) (hi : p.s0 = item) (hx : sideField p.side = some x) :
    s.readSide l p item body = (body x s).2.respond l p.tag (body x s).1 := by
  simp only [State.readSide, State.readItem_eq s l p item _ h hp hi, hx]

/-- Settles O39: the side field by `State.readSide_eq`, the layouts by `frameRecordWords_eq` and `exposureWords_eq`. -/
theorem frameHistoryAndExposureStateReport : Obligations.FrameHistoryAndExposureStateReport := by
  refine ⟨fun l x p s ha hp hi hx => ?_, fun l x p s e ha hp hi hx he => ?_⟩
  · rw [exec_frameHistory, State.take_eq _ _ ha.1, State.readSide_eq s l p 0 _ ha hp hi hx]
    refine ⟨fun h7 => ?_, fun h7 hlen => ?_, fun h7 r hr => ?_⟩
    · rw [if_pos h7, State.respond_refused]
    · rw [if_neg (by omega), State.respond_done, historyWords, List.getElem?_eq_none hlen, wordOf]
    · rw [if_neg (by omega), State.respond_done, historyWords, hr, wordOf]
      simp only [frameRecordWords_eq]
  · subst he
    rw [exec_exposureState, State.take_eq _ _ ha.1, State.readSide_eq s l p 3 _ ha hp hi hx, State.respond_done, exposureWords_eq]
    rfl

end Sys2Proof.Machine
end

section
/-! The directives for the settings of a side: SET_PROFILE_MODE, AIM, TRIM and OUTPUT_MODE (R46 to R48, R105, R134, R198, R202, R203). -/

namespace Sys2Proof.Machine

variable {l : Side} {p : Packet} {s : State} {xs : List Side}

/-! ## A change of each side named (R198) -/

theorem sidesField_nodup {f : BitVec 2} (hx : sidesField f = some xs) : xs.Nodup := by
  rcases sidesField_cases hx with rfl | rfl | rfl <;> decide

/-- Each side named is changed once, whatever the others become. -/
theorem State.forSides_side (g : Side → SideState → SideState) (hn : xs.Nodup) (s : State) (y : Side) :
    (s.forSides xs (fun s x => s.onSide x (g x))).side y = if y ∈ xs then g y (s.side y) else s.side y := by
  induction xs generalizing s with
  | nil => rfl
  | cons x xs ih =>
    obtain ⟨hx, hn⟩ := List.nodup_cons.mp hn
    refine (ih hn (s.onSide x (g x))).trans ?_
    rw [State.side_onSide]
    by_cases h : y = x
    · subst h; simp [hx]
    · simp [h]

theorem State.forSides_frame (g : Side → SideState → SideState) (xs : List Side) (s : State) :
    { s.forSides xs (fun s x => s.onSide x (g x)) with sides := s.sides } = s := by
  induction xs generalizing s with
  | nil => rfl
  | cons x xs ih => exact congrArg (fun u : State => { u with sides := s.sides }) (ih (s.onSide x (g x)))

/-- The words that report the sides named after their change. -/
theorem State.forSides_words (g : Side → SideState → SideState) (hn : xs.Nodup) (s : State) (w : SideState → List Word) :
    (xs.map (fun x => w ((s.forSides xs (fun s x => s.onSide x (g x))).side x))).flatten =
      xs.flatMap (fun x => w (g x (s.side x))) := by
  refine congrArg List.flatten (List.map_congr_left fun x hx => ?_)
  rw [State.forSides_side g hn, if_pos hx]

/-- The sides named in a directive are changed by `g`, the directive is answered DONE with `data`, and nothing else changes. -/
structure State.SidesSet (s t : State) (l : Side) (tag : BitVec 8) (xs : List Side) (g : Side → SideState → SideState)
    (data : List Word) : Prop where
  side : ∀ x, t.side x = if x ∈ xs then g x (s.side x) else s.side x
  links : t.links = (s.Answered l tag none data).links
  rest : { t with sides := s.sides, links := s.links } = s

theorem State.forSides_set (g : Side → SideState → SideState) (hn : xs.Nodup) (s : State) (l : Side) (tag : BitVec 8)
    (data : List Word) : s.SidesSet ((s.forSides xs (fun s x => s.onSide x (g x))).Answered l tag none data) l tag xs g data where
  side := State.forSides_side g hn s
  links := by
    have hlinks : (s.forSides xs (fun s x => s.onSide x (g x))).links = s.links := by
      have := congrArg State.links (State.forSides_frame g xs s); exact this
    simp only [State.Answered, State.link, hlinks]
  rest := congrArg (fun u : State => { u with links := s.links }) (State.forSides_frame g xs s)

/-- A directive that changes the sides named and reports what they then hold. -/
theorem State.sidesDirective_set {body : List Side → State → Response × State} (g : Side → SideState → SideState)
    (w : SideState → List Word) (ha : s.Admits l) (hp : p.Plain) (hx : sidesField p.side = some xs)
    (hbody : body xs s = (s.forSides xs (fun s x => s.onSide x (g x))).doneFor xs w) :
    s.SidesSet (s.sidesDirective l p body) l p.tag xs g (xs.flatMap (fun x => w (g x (s.side x)))) := by
  have hn := sidesField_nodup hx
  rw [State.sidesDirective_eq s l p body xs ha hp hx, hbody, State.doneFor, State.forSides_words g hn, State.respond_done]
  exact State.forSides_set g hn s l p.tag _

/-- A directive whose rule refuses its operands is refused whatever the checks before it find: they refuse with the same reason. -/
theorem State.sidesDirective_refused {body : List Side → State → Response × State} (ha : s.Admits l)
    (hbody : ∀ xs, body xs s = (.refused .badArgument [], s)) :
    s.sidesDirective l p body = s.Answered l p.tag (some .badArgument) [] := by
  rw [State.sidesDirective, State.plainDirective, State.directive, State.admit_eq s l p.tag _ ha]
  simp only [hbody]
  split
  · rfl
  · split
    · split <;> rfl
    · rfl

/-! ## SET_PROFILE_MODE (R46, R47, R202) -/

theorem profileModeWords_force (b : Bank) (d : SideState) :
    profileModeWords { d with exposure := d.exposure.force b } = [Config.profileModeCode (.forced b), 1, BitVec.ofNat 16 b.val] := rfl

/-- AUTO schedules bank 0 where the current bank is 3, and reports it so. -/
theorem profileModeWords_auto (d : SideState) : profileModeWords { d with exposure := d.exposure.auto } =
    [Config.profileModeCode .auto, if d.exposure.bank = 3 then 1 else 0, 0] := by
  rw [profileModeWords, Exposure.auto]
  split <;> rfl

/-- A FORCE of a bank that exists. -/
theorem exec_force_bank (b : Bank) (ha : s.Admits l) (hp : p.Plain) (hx : sidesField p.side = some xs) (h0 : p.s0 = 1)
    (h1 : b.val = p.s1.toNat) : ∃ t, exec (.setProfileModeForce l p) s = .next t ∧
      s.SidesSet t l p.tag xs (fun _ d => { d with exposure := d.exposure.force b })
        (xs.flatMap (fun _ => [Config.profileModeCode (.forced b), 1, BitVec.ofNat 16 b.val])) := by
  refine ⟨_, by rw [exec_setProfileModeForce, State.take_eq _ _ ha.1], State.sidesDirective_set _ profileModeWords ha hp hx ?_⟩
  have hlt : p.s1.toNat < 4 := h1 ▸ b.isLt
  have hb : (⟨p.s1.toNat, hlt⟩ : Bank) = b := Fin.ext h1.symm
  rw [if_pos h0, dif_pos hlt, hb, State.forceSides]

theorem exec_auto_taken (ha : s.Admits l) (hp : p.Plain) (hx : sidesField p.side = some xs) (h0 : p.s0 = 0) :
    ∃ t, exec (.setProfileModeAuto l p) s = .next t ∧
      s.SidesSet t l p.tag xs (fun _ d => { d with exposure := d.exposure.auto })
        (xs.flatMap (fun x => [Config.profileModeCode .auto, if (s.side x).exposure.bank = 3 then 1 else 0, 0])) := by
  refine ⟨_, by rw [exec_setProfileModeAuto, State.take_eq _ _ ha.1], ?_⟩
  simp only [← profileModeWords_auto]
  refine State.sidesDirective_set _ profileModeWords ha hp hx ?_
  rw [if_pos h0, State.autoSides]

theorem exec_force_refused (ha : s.Admits l) (h : p.s0 ≠ 1 ∨ 3 < p.s1.toNat) :
    exec (.setProfileModeForce l p) s = .next (s.Answered l p.tag (some .badArgument) []) := by
  rw [exec_setProfileModeForce, State.take_eq _ _ ha.1, State.sidesDirective_refused ha fun xs => ?_]
  split
  · next h0 => exact dif_neg (by have := h.resolve_left (not_not_intro h0); omega)
  · rfl

theorem exec_auto_refused (ha : s.Admits l) (h : p.s0 ≠ 0) :
    exec (.setProfileModeAuto l p) s = .next (s.Answered l p.tag (some .badArgument) []) := by
  rw [exec_setProfileModeAuto, State.take_eq _ _ ha.1, State.sidesDirective_refused ha fun xs => if_neg h]

/-- Settles O51: a mode and a bank that exist are set on each side named, any other is refused. -/
theorem setProfileModeSchedulesABank : Obligations.SetProfileModeSchedulesABank := by
  refine ⟨fun l xs p s ha hp hx => ⟨fun _ h1 => exec_force_refused ha (.inr h1), fun h0 b h1 => ?_, fun h0 => ?_⟩,
    fun l p s ha => ⟨fun h0 => exec_force_refused ha (.inl h0), exec_auto_refused ha⟩⟩
  · obtain ⟨t, ht, hset⟩ := exec_force_bank b ha hp hx h0 h1
    exact ⟨t, ht, hset.side, hset.links, hset.rest⟩
  · obtain ⟨t, ht, hset⟩ := exec_auto_taken ha hp hx h0
    exact ⟨t, ht, hset.side, hset.links, hset.rest⟩

/-! ## AIM, TRIM and OUTPUT_MODE (R48, R105, R134, R203) -/

/-- AIM on one side: the limits are those of the side's own layout record in use (R105). -/
def SideState.aimed (dx dy : Int) (x : Side) (d : SideState) : SideState :=
  { d with framing := d.framing.aim (readLayout (d.dev.copies.getD (romTables x)).layout) dx dy }

theorem State.side_aimed (s : State) (dx dy : Int) (x : Side) : (s.side x).aimed dx dy x = { s.side x with
    framing := { (s.side x).framing with
      aimDx := max (-(s.layoutOf x).axMax) (min dx (s.layoutOf x).axMax),
      aimDy := max (-(s.layoutOf x).ayMax) (min dy (s.layoutOf x).ayMax) } } := rfl

theorem exec_aim_taken (ha : s.Admits l) (hp : p.Plain) (hx : sidesField p.side = some xs) :
    ∃ t, exec (.aim l p) s = .next t ∧ s.SidesSet t l p.tag xs (fun x d => d.aimed p.s0.toInt p.s1.toInt x)
      (xs.flatMap (fun x => [BitVec.ofInt 16 (t.side x).framing.aimDx, BitVec.ofInt 16 (t.side x).framing.aimDy])) := by
  have h := State.sidesDirective_set (body := State.aimSides p.s0.toInt p.s1.toInt) (fun x d => d.aimed p.s0.toInt p.s1.toInt x)
    (fun d => [wordOfInt d.framing.aimDx, wordOfInt d.framing.aimDy]) ha hp hx rfl
  refine ⟨_, by rw [exec_aim, State.take_eq _ _ ha.1], ?_⟩
  convert h using 1
  refine List.flatMap_congr fun x hxs => ?_
  rw [h.side, if_pos hxs, wordOfInt, wordOfInt]

theorem exec_trim_taken (ha : s.Admits l) (hp : p.Plain) (hx : sidesField p.side = some xs) :
    ∃ t, exec (.trim l p) s = .next t ∧ s.SidesSet t l p.tag xs
      (fun _ d => { d with exposure := { d.exposure with trim := max (-256) (min p.s0.toInt 256) } })
      [BitVec.ofInt 16 (max (-256) (min p.s0.toInt 256))] := by
  refine ⟨_, by rw [exec_trim, State.take_eq _ _ ha.1, State.sidesDirective_eq s l p _ xs ha hp hx], ?_⟩
  exact State.forSides_set _ (sidesField_nodup hx) s l p.tag _

theorem modeField_code {w : Word} {m : OutputMode} (h : m.code = w.toNat) : modeField w = some m ∧ wordOf m.code = w := by
  obtain rfl : wordOf m.code = w := by rw [h, wordOf, BitVec.ofNat_toNat, BitVec.setWidth_eq]
  cases m <;> decide

theorem modeField_none {w : Word} (h : 2 < w.toNat) : modeField w = none := by
  have h0 : w ≠ 0 := by rintro rfl; simp at h
  have h1 : w ≠ 1 := by rintro rfl; simp at h
  have h2 : w ≠ 2 := by rintro rfl; simp at h
  rw [modeField, if_neg h0, if_neg h1, if_neg h2]

theorem exec_outputMode_taken {m : OutputMode} (ha : s.Admits l) (hp : p.Plain) (hx : sidesField p.side = some xs)
    (hm : m.code = p.s0.toNat) : ∃ t, exec (.outputMode l p) s = .next t ∧
      s.SidesSet t l p.tag xs (fun _ d => { d with comp := { d.comp with requested := m } })
        (xs.flatMap (fun x => [wordOf m.code, BitVec.ofNat 16 (s.side x).comp.mode.code])) := by
  refine ⟨_, by rw [exec_outputMode, State.take_eq _ _ ha.1], ?_⟩
  refine State.sidesDirective_set _ (fun d => [wordOf d.comp.requested.code, wordOf d.comp.mode.code]) ha hp hx ?_
  simp only [(modeField_code hm).1]
  rfl

theorem exec_outputMode_refused (ha : s.Admits l) (h : 2 < p.s0.toNat) :
    exec (.outputMode l p) s = .next (s.Answered l p.tag (some .badArgument) []) := by
  rw [exec_outputMode, State.take_eq _ _ ha.1, State.sidesDirective_refused ha fun xs => ?_]
  simp only [modeField_none h]

/-- Settles O52: each of the three sets its value on each side named and keeps everything else, and a fourth output mode is refused. -/
theorem aimTrimAndOutputModeReplaceTheirValues : Obligations.AimTrimAndOutputModeReplaceTheirValues := by
  intro l xs p s ha hp hx
  refine ⟨?_, ?_, fun m hm => ?_, exec_outputMode_refused ha⟩
  · obtain ⟨t, ht, hset⟩ := exec_aim_taken ha hp hx
    exact ⟨t, ht, fun x => by rw [hset.side, State.side_aimed], hset.links, hset.rest⟩
  · obtain ⟨t, ht, hset⟩ := exec_trim_taken ha hp hx
    exact ⟨t, ht, hset.side, hset.links, hset.rest⟩
  · obtain ⟨t, ht, hset⟩ := exec_outputMode_taken ha hp hx hm
    rw [(modeField_code hm).2] at hset
    exact ⟨t, ht, hset.side, hset.links, hset.rest⟩

end Sys2Proof.Machine
end

section
/-! A link that enters DOWN (R51, R177, R187, R192): what becomes of it, of its side, and of the notices of the other link. -/

namespace Sys2Proof.Machine

variable {s t : State} {l : Side}

/-! ## A run of notices on one link (R184, R187) -/

/-- The notice queue with a notice for a record, unless one is queued already (R184). -/
def queueNotice (q : List RecordId) (i : RecordId) : List RecordId := if i ∈ q then q else q ++ [i]

theorem Link.enqueue_notices (k : Link) (i : RecordId) : k.enqueue i = { k with notices := queueNotice k.notices i } := by
  unfold Link.enqueue queueNotice
  split <;> rfl

theorem mem_queueNotices {is q : List RecordId} {i : RecordId} (h : i ∈ q ∨ i ∈ is) : i ∈ is.foldl queueNotice q := by
  induction is generalizing q with
  | nil => exact h.resolve_right List.not_mem_nil
  | cons j js ih =>
    refine ih ?_
    unfold queueNotice
    rcases h with h | h
    · split <;> simp [h]
    · rcases List.mem_cons.mp h with rfl | h
      · split <;> simp [*]
      · exact .inr h

theorem State.onLink_onLink (s : State) (l : Side) (f g : Link → Link) : (s.onLink l f).onLink l g = s.onLink l (fun k => g (f k)) := by
  simp [State.onLink]

theorem State.onLink_same (s : State) (l : Side) : s.onLink l (fun k => k) = s := by simp [State.onLink]

theorem State.onLink_congr {f g : Link → Link} (h : f (s.link l) = g (s.link l)) : s.onLink l f = s.onLink l g :=
  congrArg (fun k => { s with links := s.links.set l k }) h

/-- The link with the notices of a run, those that its mask admits (R182, R184). -/
def Link.queueAll (is : List RecordId) (k : Link) : Link :=
  { k with notices := (is.filter (admits k.mask)).foldl queueNotice k.notices }

theorem Link.queueAll_cons_admitted {k : Link} {i : RecordId} (h : admits k.mask i = true) (is : List RecordId) :
    k.queueAll (i :: is) = (k.enqueue i).queueAll is := by
  simp only [Link.queueAll, Link.enqueue_notices, List.filter_cons_of_pos h, List.foldl_cons]

theorem Link.queueAll_cons_masked {k : Link} {i : RecordId} (h : ¬ admits k.mask i = true) (is : List RecordId) :
    k.queueAll (i :: is) = k.queueAll is := by
  simp only [Link.queueAll, List.filter_cons_of_neg h]

/-- A run of notices queued on a link changes that link's notices and nothing else. -/
theorem State.queueAll_eq (s : State) (l : Side) (is : List RecordId) :
    is.foldl (fun s i => s.queueOn l i) s = s.onLink l (Link.queueAll is) := by
  induction is generalizing s with
  | nil => exact (State.onLink_same s l).symm
  | cons i is ih =>
    rw [List.foldl_cons, ih, State.queueOn]
    split
    · next h =>
      rw [State.onLink_onLink]
      exact State.onLink_congr (Link.queueAll_cons_admitted h is).symm
    · next h => exact State.onLink_congr (Link.queueAll_cons_masked h is).symm

/-! ## The link and its side -/

/-- A side when a link goes DOWN: the reservation that the link holds is dropped, and its own side's trim is 0 (R51, R192). -/
def SideState.linkLost (d : SideState) (x l : Side) : SideState :=
  { d with
    tables := d.tables.dropReservation l
    exposure := if x = l then { d.exposure with trim := 0 } else d.exposure }

theorem SideTables.dropReservation_commit (d : SideTables) (l : Side) : (d.dropReservation l).commit =
    d.commit.map (fun c => { c with link := if c.link = some l then none else c.link }) := by
  refine congrArg (d.commit.map ·) (funext fun c => ?_)
  split <;> rfl

/-- The state when the link is DOWN, with nothing handed over or reported yet: the first part of `State.enterDown`. -/
def State.fallen (s : State) (l : Side) : State :=
  { s with
    links := s.links.set l (s.link l).lowered
    sides := { left := (s.side .left).linkLost .left l, right := (s.side .right).linkLost .right l } }

theorem State.enterDown_eq (s : State) (l : Side) (d : Word) : s.enterDown l d = ((s.fallen l).handOver l).setLinkDown l d := by
  cases l <;> rfl

section
variable (s l)

theorem State.fallen_side (x : Side) : (s.fallen l).side x = (s.side x).linkLost x l := by cases x <;> rfl

theorem State.fallen_link : (s.fallen l).link l = (s.link l).lowered := by simp [State.fallen, State.link]

theorem State.fallen_link_other : (s.fallen l).link l.other = s.link l.other := by simp [State.fallen, State.link]

/-! ## The hand-over (R187) -/

/-- The records of the side in force that are handed over to the other link, in record order (R187). -/
def State.handedOver : List RecordId := (RecordId.ofSide l).filter (fun i => decide ((s.faults.get i).state ≠ .clear))

theorem State.handOver_eq : s.handOver l =
    s.onLink l.other (fun k => if (s.link l.other).state = .up then k.queueAll (s.handedOver l) else k) := by
  unfold State.handOver State.isUp
  by_cases h : (s.link l.other).state = .up
  · simp only [h, decide_true, if_true]
    exact State.queueAll_eq s l.other _
  · simp only [h, decide_false, Bool.false_eq_true, if_false]
    exact (State.onLink_same s l.other).symm

end

/-! ## DISPLAY_LINK_DOWN (R177, R183, R192) -/

/-- A setting of the record of a link's side, while that link is not UP: the notice goes to the other link, where it is UP (R183). -/
theorem State.raise_downLink {c : SideClass} (hd : (s.link l).state ≠ .up) (d : Word) :
    (s.raise (.side c l) d).link l = s.link l ∧
    (s.raise (.side c l) d).link l.other =
      if (s.faults.get (.side c l)).state = .clear ∧ (s.link l.other).state = .up then (s.link l.other).queueAll [.side c l]
      else s.link l.other := by
  have hown : s.routesTo (.side c l) l = false := by
    simp [State.routesTo, State.isUp, hd, (Side.other_ne l).symm]
  have hother : s.routesTo (.side c l) l.other = true ↔ (s.link l.other).state = .up := by
    simp [State.routesTo, State.isUp, hd]
  refine ⟨by simp [State.raise_link, hown], ?_⟩
  rw [State.raise_link]
  by_cases h : (s.faults.get (.side c l)).state = .clear ∧ (s.link l.other).state = .up
  · rw [if_pos h]
    by_cases ha : admits (s.link l.other).mask (.side c l) = true
    · rw [if_pos ⟨h.1, hother.mpr h.2, ha⟩, Link.queueAll_cons_admitted ha]; rfl
    · rw [if_neg (fun g => ha g.2.2), Link.queueAll_cons_masked ha]; rfl
  · rw [if_neg (fun g => h ⟨g.1, hother.mp g.2.1⟩), if_neg h]

end Sys2Proof.Machine
end

section
/-! A link that enters DOWN (R51, R177, R187, R192): the event as a whole, and the obligation. -/

namespace Sys2Proof.Machine

variable {s t : State} {l : Side} {d : Word}

/-! ## Entering DOWN -/

/-- DISPLAY_LINK_DOWN where its setting queues a notice: the link has been UP and the record is CLEAR (R177, R192). -/
def State.newlyDown (s : State) (l : Side) : List RecordId :=
  if (s.link l).beenUp = true ∧ (s.faults.get (.side .displayLinkDown l)).state = .clear then [.side .displayLinkDown l] else []

/-- What the report of DISPLAY_LINK_DOWN changes, while the link is not UP (R177, R183, R192, R193). -/
theorem State.setLinkDown_spec (hd : (s.link l).state ≠ .up) (d : Word) :
    { (s.setLinkDown l d).link l with linkCond := (s.link l).linkCond } = s.link l ∧
    ((s.link l).beenUp = true → ((s.setLinkDown l d).link l).linkCond = true) ∧
    (s.setLinkDown l d).link l.other =
      (if (s.link l.other).state = .up then (s.link l.other).queueAll (s.newlyDown l) else s.link l.other) ∧
    (s.setLinkDown l d).faults = (if (s.link l).beenUp = true then
      s.faults.set (.side .displayLinkDown l) ((s.faults.get (.side .displayLinkDown l)).setAt s.tick d) else s.faults) ∧
    { s.setLinkDown l d with links := s.links, faults := s.faults } = s := by
  unfold State.setLinkDown
  split
  · next hb =>
    obtain ⟨w, hw⟩ : ∃ w, w = s.onLink l (fun k => { k with linkCond := true }) := ⟨_, rfl⟩
    have hown : w.link l = { s.link l with linkCond := true } := by rw [hw, State.onLink_link]
    have hother : w.link l.other = s.link l.other := by rw [hw, State.onLink_link_other]
    have hfaults : w.faults = s.faults := by rw [hw, State.onLink_faults]
    have hrest : { w with links := s.links } = s := by rw [hw]; rfl
    obtain ⟨hrown, hrother⟩ := State.raise_downLink (s := w) (l := l) (c := .displayLinkDown) (by rw [hown]; exact hd) d
    rw [← hw]
    refine ⟨by rw [hrown, hown], fun _ => by rw [hrown, hown], ?_, ?_, ?_⟩
    · rw [hrother, hother, hfaults]
      by_cases hc : (s.faults.get (.side .displayLinkDown l)).state = .clear
      · have hnew : s.newlyDown l = [.side .displayLinkDown l] := if_pos ⟨hb, hc⟩
        simp only [hnew, hc, true_and]
      · have hnew : s.newlyDown l = [] := if_neg (fun h => hc h.2)
        rw [if_neg (fun h => hc h.1), hnew]
        split <;> rfl
    · rw [State.raise_faults, hfaults, hw, State.onLink_tick]
    · have hr := congrArg (fun u : State => { u with links := s.links, faults := s.faults })
        (State.raise_reported w (.side .displayLinkDown l) d).rest
      exact hr.trans (congrArg (fun u : State => { u with faults := s.faults }) hrest)
  · next hb =>
    have hnew : s.newlyDown l = [] := if_neg (fun h => hb h.1)
    refine ⟨rfl, fun h => absurd h hb, ?_, rfl, rfl⟩
    rw [hnew]
    split <;> rfl

/-- What the loss of a link makes of the part, whether the link then stays DOWN or begins TRAINING (R51, R187, R192). -/
structure State.LinkLost (s t : State) (l : Side) (d : Word) : Prop where
  own : { t.link l with state := .down, linkCond := (s.link l).linkCond } = (s.link l).lowered
  cond : (s.link l).beenUp = true → (t.link l).linkCond = true
  other : t.link l.other = if (s.link l.other).state = .up then (s.link l.other).queueAll (s.handedOver l ++ s.newlyDown l)
    else s.link l.other
  side : ∀ x, t.side x = (s.side x).linkLost x l
  faults : t.faults = if (s.link l).beenUp = true then
      s.faults.set (.side .displayLinkDown l) ((s.faults.get (.side .displayLinkDown l)).setAt s.tick d)
    else s.faults
  rest : { t with sides := s.sides, links := s.links, faults := s.faults } = s

theorem Link.queueAll_append (k : Link) (is js : List RecordId) : k.queueAll (is ++ js) = (k.queueAll is).queueAll js := by
  simp only [Link.queueAll, List.filter_append, List.foldl_append]

/-- The state once the records in force are handed over. -/
theorem State.fallen_handOver (s : State) (l : Side) :
    ((s.fallen l).handOver l).link l = (s.link l).lowered ∧
    ((s.fallen l).handOver l).link l.other =
      (if (s.link l.other).state = .up then (s.link l.other).queueAll (s.handedOver l) else s.link l.other) ∧
    (∀ x, ((s.fallen l).handOver l).side x = (s.side x).linkLost x l) ∧
    { (s.fallen l).handOver l with sides := s.sides, links := s.links } = s := by
  rw [State.handOver_eq]
  refine ⟨?_, ?_, State.fallen_side s l, rfl⟩
  · rw [State.link_onLink, if_neg (Side.other_ne l).symm, State.fallen_link]
  · rw [State.onLink_link, State.fallen_link_other]
    rfl

/-- Entering DOWN: the hand-over of what is in force, and then the report of the link itself. -/
theorem State.enterDown_lost (s : State) (l : Side) (d : Word) : s.LinkLost (s.enterDown l d) l d := by
  obtain ⟨v, hv⟩ : ∃ v, v = (s.fallen l).handOver l := ⟨_, rfl⟩
  obtain ⟨hown, hother, hside, hrest⟩ := State.fallen_handOver s l
  rw [State.enterDown_eq]
  rw [← hv] at hown hother hside hrest ⊢
  obtain ⟨rown, rcond, rother, rfaults, rrest⟩ := State.setLinkDown_spec (s := v) (l := l) (by rw [hown]; simp [Link.lowered]) d
  have hfaults : v.faults = s.faults := by have := congrArg State.faults hrest; exact this
  have htick : v.tick = s.tick := by have := congrArg State.tick hrest; exact this
  have hbeen : (v.link l).beenUp = (s.link l).beenUp := by rw [hown]; rfl
  have hnew : v.newlyDown l = s.newlyDown l := by rw [State.newlyDown, hbeen, hfaults, State.newlyDown]
  refine ⟨?_, fun hb => rcond (hbeen.trans hb), ?_, fun x => ?_, ?_, ?_⟩
  · have hr := congrArg (fun k : Link => { k with state := .down, linkCond := (s.link l).linkCond }) rown
    rw [hown] at hr
    exact hr
  · rw [rother, hnew, hother]
    by_cases hup : (s.link l.other).state = .up
    · simp only [hup, if_true, Link.queueAll_append]
      exact if_pos hup
    · simp only [hup, if_false]
  · have hr := congrArg (fun u : State => u.side x) rrest
    exact hr.trans (hside x)
  · rw [rfaults, hbeen, hfaults, htick]
  · have hr := congrArg (fun u : State => { u with sides := s.sides, links := s.links, faults := s.faults }) rrest
    exact hr.trans (congrArg (fun u : State => { u with faults := s.faults }) hrest)

/-- A link that begins TRAINING from UP has been lost first (R191). -/
theorem State.LinkLost.train (h : s.LinkLost t l d) : s.LinkLost (t.onLink l (fun k => { k with state := .training })) l d where
  own := by rw [State.onLink_link]; exact h.own
  cond hb := by rw [State.onLink_link]; exact h.cond hb
  other := by rw [State.onLink_link_other]; exact h.other
  side := h.side
  faults := h.faults
  rest := h.rest

/-- The two commands by which a link enters DOWN, with the detail that each reports (R191, R192). -/
theorem exec_linkLost {i : Instr} (hr : s.inReset = false)
    (hi : (i = .lossOfLock l ∧ (s.link l).state ≠ .down) ∨ (i = .trainingRequest l ∧ (s.link l).state = .up)) :
    ∃ t, exec i s = .next t ∧ s.LinkLost t l (if (s.link l).state = .up then 1 else 2) := by
  rcases hi with ⟨rfl, hs⟩ | ⟨rfl, hs⟩
  · refine ⟨_, by rw [exec_lossOfLock, State.take_eq _ _ hr], ?_⟩
    unfold State.lossOfLock
    cases hst : (s.link l).state with
    | down => exact absurd hst hs
    | training => exact State.enterDown_lost s l 2
    | up => exact State.enterDown_lost s l 1
  · refine ⟨_, by rw [exec_trainingRequest, State.take_eq _ _ hr], ?_⟩
    simp only [State.trainingRequest, hs, if_true]
    exact (State.enterDown_lost s l 1).train

/-! ## What the obligation says of it -/

theorem FaultRecord.setAt_inForce {r : FaultRecord} (h : r.state ≠ .clear) (now : Tick) (d : Word) :
    (r.setAt now d).state = r.state := by
  unfold FaultRecord.setAt
  split <;> simp_all

namespace State.LinkLost

variable (h : s.LinkLost t l d)
include h

theorem fields : (t.link l).replies = [] ∧ (t.link l).notices = [] ∧ (t.link l).overrun = false ∧ (t.link l).forward = none ∧
    (t.link l).mask = (s.link l).mask ∧ (t.link l).beenUp = (s.link l).beenUp := by
  have hown := h.own
  simp only [Link.lowered, Link.mk.injEq] at hown
  obtain ⟨-, hbeen, -, hreplies, hoverrun, hmask, hnotices, hforward⟩ := hown
  exact ⟨hreplies, hnotices, hoverrun, hforward, hmask, hbeen⟩

theorem record (hb : (s.link l).beenUp = true) : t.faults.get (.side .displayLinkDown l) =
    (s.faults.get (.side .displayLinkDown l)).setAt s.tick d := by
  rw [h.faults, if_pos hb, FaultTable.get_set_self]

theorem otherRecord (i : RecordId) (hi : i ≠ .side .displayLinkDown l) : t.faults.get i = s.faults.get i := by
  rw [h.faults]
  split
  · rw [FaultTable.get_set, if_neg hi]
  · rfl

theorem otherLink : { t.link l.other with notices := (s.link l.other).notices } = s.link l.other := by
  rw [h.other]
  split <;> rfl

/-- The records that the notice queue of the other link takes are those admitted, in force before or newly set. -/
theorem notices (inForce new : List RecordId)
    (hf : inForce = (SideClass.all.map (fun c => RecordId.side c l)).filter (fun i =>
      decide ((s.faults.get i).state ≠ .clear) && (s.link l.other).mask.getLsbD i.classCode))
    (hn : new = if (s.link l).beenUp = true ∧ (s.faults.get (.side .displayLinkDown l)).state = .clear ∧
      (s.link l.other).mask.getLsbD 8 = true then [.side .displayLinkDown l] else []) :
    (t.link l.other).notices = if (s.link l.other).state = .up then
        (inForce ++ new).foldl queueNotice (s.link l.other).notices
      else (s.link l.other).notices := by
  have hheld : (s.handedOver l).filter (admits (s.link l.other).mask) = inForce := by
    rw [hf, State.handedOver, List.filter_filter, RecordId.ofSide]
    exact List.filter_congr fun i _ => Bool.and_comm _ _
  have hadmits : admits (s.link l.other).mask (.side .displayLinkDown l) = true ↔ (s.link l.other).mask.getLsbD 8 = true := Iff.rfl
  have hnew : (s.newlyDown l).filter (admits (s.link l.other).mask) = new := by
    rw [hn, State.newlyDown]
    by_cases hd : (s.link l).beenUp = true ∧ (s.faults.get (.side .displayLinkDown l)).state = .clear
    · rw [if_pos hd]
      by_cases hm : (s.link l.other).mask.getLsbD 8 = true
      · rw [if_pos ⟨hd.1, hd.2, hm⟩, List.filter_cons_of_pos (hadmits.mpr hm), List.filter_nil]
      · rw [if_neg (fun g => hm g.2.2), List.filter_cons_of_neg (fun g => hm (hadmits.mp g)), List.filter_nil]
    · rw [if_neg hd, if_neg (fun g => hd ⟨g.1, g.2.1⟩), List.filter_nil]
  rw [h.other]
  split
  · rw [Link.queueAll, List.filter_append, hheld, hnew]
  · rfl

/-- Every admitted record of the side in force after the event has its notice on the other link. -/
theorem mem_notices (hup : (s.link l.other).state = .up) (c : SideClass) (hc : (t.faults.get (.side c l)).state ≠ .clear)
    (ha : admits (s.link l.other).mask (.side c l) = true) : RecordId.side c l ∈ (t.link l.other).notices := by
  rw [h.other, if_pos hup]
  refine mem_queueNotices (.inr (List.mem_filter.mpr ⟨List.mem_append.mpr ?_, ha⟩))
  by_cases hs : (s.faults.get (.side c l)).state = .clear
  · right
    have hi : RecordId.side c l = .side .displayLinkDown l := by
      by_contra hi
      exact hc (h.otherRecord _ hi ▸ hs)
    have hb : (s.link l).beenUp = true := by
      by_contra hb
      rw [h.faults, if_neg hb] at hc
      exact hc hs
    rw [hi] at hs ⊢
    rw [State.newlyDown, if_pos ⟨hb, hs⟩]
    exact List.mem_singleton.mpr rfl
  · exact .inl (List.mem_filter.mpr ⟨RecordId.mem_ofSide.mpr ⟨c, rfl⟩, decide_eq_true hs⟩)

end State.LinkLost

/-- Settles O33: both commands take `State.enterDown` with the detail of the state left, and `State.LinkLost` says what that makes of the
link, its side, the records and the other link. -/
theorem enteringDownEmptiesTheLinkAndHandsOver : Obligations.EnteringDownEmptiesTheLinkAndHandsOver := by
  intro l s i hr hi
  obtain ⟨t, ht, h⟩ := exec_linkLost hr hi
  obtain ⟨hreplies, hnotices, hoverrun, hforward, hmask, hbeen⟩ := h.fields
  have hstore := congrArg State.frameStore h.rest
  have htables := congrArg State.tableStore h.rest
  have hlocks := congrArg State.locks h.rest
  have hartic := congrArg State.artic h.rest
  refine ⟨t, ht, hreplies, hnotices, hoverrun, hforward, hmask, hbeen, ?_, ?_, fun x => ?_, fun x => ?_,
    fun hb => ⟨h.cond hb, ?_, ?_⟩, fun hb => ?_, h.mem_notices, h.notices, h.otherLink, h.otherRecord, fun hb hs => ?_, hstore, htables, hlocks, hartic⟩
  · rw [h.side, SideState.linkLost, if_pos rfl]
  · rw [h.side, SideState.linkLost, if_neg (Side.other_ne l)]
  · rw [h.side]
    exact SideTables.dropReservation_commit _ _
  · rw [h.side]
    rfl
  · rw [h.record hb]; exact FaultRecord.setAt_state _ _ _
  · rw [h.record hb]; exact FaultRecord.setAt_detail _ _ _
  · rw [h.faults, hb]; rfl
  · rw [h.record hb, FaultRecord.setAt_inForce hs]

end Sys2Proof.Machine
end

section
/-! The code of the table store: a word stored without error is the stored word of its data, and the injections on it (R155, R156, R172). -/

namespace Sys2Proof.Machine

/-- The bits of the syndrome of a table word. -/
def syndromeBits (w : BitVec 22) : BitVec 6 :=
  bitsOf 6 (fun i => if i < 5 then parityAt 22 i (fun p => w.getLsbD p) else xorBelow 22 (fun p => w.getLsbD p))

theorem syndrome_eq (w : BitVec 22) : syndrome 5 w = (syndromeBits w).toNat := rfl

theorem parityAt_xor (i : Nat) (f g : Nat → Bool) : parityAt 22 i (fun p => f p ^^ g p) = (parityAt 22 i f ^^ parityAt 22 i g) := by
  rw [parityAt, parityAt, parityAt, ← xorBelow_xor]
  exact xorBelow_congr fun p _ => Bool.and_xor_distrib_left ..

/-- The syndrome is linear: errors add to it. -/
theorem syndrome_xor (a b : BitVec 22) : syndrome 5 (a ^^^ b) = syndrome 5 a ^^^ syndrome 5 b := by
  have bits : syndromeBits (a ^^^ b) = syndromeBits a ^^^ syndromeBits b := by
    refine BitVec.eq_of_getLsbD_eq fun i _ => ?_
    rw [BitVec.getLsbD_xor, syndromeBits, syndromeBits, syndromeBits, getLsbD_bitsOf, getLsbD_bitsOf, getLsbD_bitsOf]
    simp only [BitVec.getLsbD_xor, parityAt_xor, xorBelow_xor]
    by_cases hi : i < 5 <;> simp [hi, Bool.and_xor_distrib_left]
  rw [syndrome_eq, syndrome_eq, syndrome_eq, bits, BitVec.toNat_xor]

theorem checkWord_clean_iff (w : BitVec 22) : checkWord 5 w = .clean ↔ syndrome 5 w = 0 := by
  unfold checkWord
  dsimp only
  split
  · next h => exact iff_of_true rfl h
  · next h => split <;> exact iff_of_false (fun hc => by cases hc) h

/-- A position of a table word is 0, a check position, or that of the data bit which it numbers. -/
theorem tablePosition (p : Nat) (hp : p < 22) :
    p = 0 ∨ (isCheckPos p = true ∧ p = 2 ^ Nat.log2 p ∧ Nat.log2 p < 5) ∨
      (isCheckPos p = false ∧ dataIndex p < 16 ∧ (dataPositions 22)[dataIndex p]? = some p) := by
  have all : ∀ p < 22, p = 0 ∨ (isCheckPos p = true ∧ p = 2 ^ Nat.log2 p ∧ Nat.log2 p < 5) ∨
      (isCheckPos p = false ∧ dataIndex p < 16 ∧ (dataPositions 22)[dataIndex p]? = some p) := by decide +kernel
  exact all p hp

/-- Only the word 0 has no data bit set and syndrome 0: each check bit is the parity of its position alone. -/
theorem eq_zero_of_syndrome {u : BitVec 22} (hs : syndrome 5 u = 0) (hd : ∀ p, p < 22 → isCheckPos p = false → u.getLsbD p = false) :
    u = 0 := by
  have hbits : syndromeBits u = 0 := BitVec.eq_of_toNat_eq hs
  have parity : ∀ i, i < 5 → parityAt 22 i (fun p => u.getLsbD p) = false := fun i hi => by
    have h : (syndromeBits u).getLsbD i = false := by rw [hbits]; simp
    rw [syndromeBits, getLsbD_bitsOf] at h
    simpa [hi, show i < 6 by omega] using h
  have overall : xorBelow 22 (fun p => u.getLsbD p) = false := by
    have h : (syndromeBits u).getLsbD 5 = false := by rw [hbits]; rfl
    rw [syndromeBits, getLsbD_bitsOf] at h
    simpa using h
  have check : ∀ i, i < 5 → u.getLsbD (2 ^ i) = false := fun i hi => by
    rw [← parity i hi, ← parityAt_checks (fun i => u.getLsbD (2 ^ i)) i hi, parityAt, parityAt]
    refine xorBelow_congr fun p hp => ?_
    obtain rfl | ⟨hc, h2, -⟩ | ⟨hc, -⟩ := tablePosition p hp
    · simp
    · have h0 : p ≠ 0 := fun h0 => by rw [h0] at h2; simp at h2
      rw [← h2]
      simp [hc, h0]
    · simp [hc, hd p hp hc]
  have rest : ∀ p, p < 22 → p ≠ 0 → u.getLsbD p = false := fun p hp h0 => by
    obtain h | ⟨-, h2, hi⟩ | ⟨hc, -⟩ := tablePosition p hp
    · exact absurd h h0
    · rw [h2]; exact check _ hi
    · exact hd p hp hc
  have first : u.getLsbD 0 = false := by
    have alone : ∀ p, p < 22 → u.getLsbD p = (if p = 0 then u.getLsbD 0 else false) := fun p hp => by
      by_cases h0 : p = 0
      · rw [if_pos h0, h0]
      · rw [if_neg h0, rest p hp h0]
    rw [xorBelow_congr alone] at overall
    cases h : u.getLsbD 0 with
    | false => rfl
    | true =>
      rw [h] at overall
      simp [xorBelow] at overall
  refine BitVec.eq_of_getLsbD_eq fun p hp => ?_
  by_cases h0 : p = 0
  · rw [h0, first]; rfl
  · rw [rest p hp h0]; simp

theorem getLsbD_dataOf (w : BitVec 22) {p : Nat} (hi : dataIndex p < 16) (hp : (dataPositions 22)[dataIndex p]? = some p) :
    (dataOf 16 w : Word).getLsbD (dataIndex p) = w.getLsbD p := by
  rw [dataOf, getLsbD_bitsOf, List.getD_eq_getElem?_getD, List.getElem?_map, hp]
  simp [hi]

/-- A word stored without error is the stored word of its data (R155). -/
theorem encodeWord_dataOf {w : BitVec 22} (h : checkWord 5 w = .clean) : encodeWord 22 (dataOf 16 w : Word) = w := by
  have hs : syndrome 5 (w ^^^ encodeWord 22 (dataOf 16 w : Word)) = 0 := by
    rw [syndrome_xor, (checkWord_clean_iff w).mp h, syndrome_encodeWord]
    rfl
  have hzero := eq_zero_of_syndrome hs fun p hp hc => by
    obtain rfl | ⟨hc', -⟩ | ⟨-, hi, hd⟩ := tablePosition p hp
    · exact absurd hc (by decide)
    · rw [hc'] at hc; cases hc
    · have h0 : p ≠ 0 := fun h0 => by rw [h0] at hc; exact absurd hc (by decide)
      rw [BitVec.getLsbD_xor, getLsbD_encodeWord, ← getLsbD_dataOf w hi hd]
      simp [hp, h0, bodyBit, hc]
  exact (BitVec.xor_eq_zero_iff.mp hzero).symm

/-- What an injection adds to the syndrome of a word stored without error (R156, R172). -/
theorem syndrome_injected {w : BitVec 22} (h : checkWord 5 w = .clean) (k : InjKind) :
    syndrome 5 (w ^^^ k.flips 22) = syndrome 5 (k.flips 22) := by
  rw [syndrome_xor, (checkWord_clean_iff w).mp h, Nat.zero_xor]

theorem checkWord_injected_single {w : BitVec 22} (h : checkWord 5 w = .clean) :
    checkWord 5 (w ^^^ InjKind.single.flips 22) = .corrected 35 w := by
  have hy : syndrome 5 (InjKind.single.flips 22) = 35 := by decide +kernel
  have hback : w ^^^ InjKind.single.flips 22 ^^^ 1#22 <<< 3 = w := by
    rw [BitVec.xor_assoc, show InjKind.single.flips 22 ^^^ 1#22 <<< 3 = 0#22 by decide, BitVec.xor_zero]
  unfold checkWord
  rw [syndrome_injected h, hy]
  simpa using hback

theorem checkWord_injected_double {w : BitVec 22} (h : checkWord 5 w = .clean) :
    checkWord 5 (w ^^^ InjKind.double.flips 22) = .uncorrectable 6 := by
  have hy : syndrome 5 (InjKind.double.flips 22) = 6 := by decide +kernel
  unfold checkWord
  rw [syndrome_injected h, hy]
  rfl

end Sys2Proof.Machine
end

section
/-! The table store's words that are stored without error stand through every read, and reads deliver their data or nothing (R156, R157,
R172). -/

namespace Sys2Proof.Machine

variable {s t u : State} {x : Side}

/-- The word stored at an address of the table store. -/
def State.wordAt (s : State) (a : Nat) : BitVec 22 := Mem.read tableDefault s.tableStore.mem a

/-- The words stored without error are stored so after, and the lengths of the defect lists are the same. -/
structure State.Rereads (s t : State) : Prop where
  words : ∀ a, checkWord 5 (s.wordAt a) = .clean → t.wordAt a = s.wordAt a
  count : ∀ y, (t.side y).tables.defectCount = (s.side y).tables.defectCount

theorem State.Rereads.refl (s : State) : s.Rereads s := ⟨fun _ _ => rfl, fun _ => rfl⟩

theorem State.Rereads.trans (h : s.Rereads t) (k : t.Rereads u) : s.Rereads u where
  words a ha := (k.words a ((h.words a ha).symm ▸ ha)).trans (h.words a ha)
  count y := (k.count y).trans (h.count y)

theorem State.Rereads.of_store (hs : t.sides = s.sides) (hm : t.tableStore.mem = s.tableStore.mem) : s.Rereads t where
  words a _ := by rw [State.wordAt, State.wordAt, hm]
  count y := by rw [State.side, State.side, hs]

theorem State.Rereads.raise (s : State) (i : RecordId) (d : Word) : s.Rereads (s.raise i d) := .of_store (by simp) (by simp)

theorem State.Rereads.endFault (s : State) (i : RecordId) : s.Rereads (s.endFault i) := .of_store (by simp) (by simp)

theorem State.Rereads.onTables (s : State) (x : Side) (f : SideTables → SideTables)
    (h : (f (s.side x).tables).defectCount = (s.side x).tables.defectCount) :
    s.Rereads (s.onSide x (fun d => { d with tables := f d.tables })) where
  words _ _ := rfl
  count y := by
    rw [State.side_onSide]
    split
    · next hy => rw [hy]; exact h
    · rfl

/-- A read of a word that is stored without error delivers its data or nothing, and leaves the word as it stands (R156, R172). -/
theorem State.readTableWord_reread (s : State) (x : Side) (a : Nat) :
    s.Rereads (s.readTableWord x a).2 ∧
      (checkWord 5 (s.wordAt a) = .clean → ∀ v, (s.readTableWord x a).1 = some v → v = dataOf 16 (s.wordAt a)) := by
  have key : checkWord 5 (s.wordAt a) = .clean → (s.readTableWord x a).2.wordAt a = s.wordAt a ∧
      ∀ v, (s.readTableWord x a).1 = some v → v = dataOf 16 (s.wordAt a) := fun hc => by
    have written : ∀ m : Mem 22, Mem.read tableDefault (Mem.writeBlock tableDefault m a [encodeWord 22 (dataOf 16 (s.wordAt a) : Word)]) a =
        s.wordAt a := fun m => by
      have h := Mem.read_writeBlock_in (dflt := tableDefault) m a [encodeWord 22 (dataOf 16 (s.wordAt a) : Word)] 0 (by simp)
      rw [Nat.add_zero] at h
      exact h.trans (encodeWord_dataOf hc)
    unfold State.readTableWord
    dsimp only
    rcases (takeInjection s.tableStore.injection a).1 with _ | k
    · have hr : checkWord 5 (asRead none (s.wordAt a)) = .clean := hc
      rw [State.wordAt] at hr
      rw [hr]
      exact ⟨rfl, fun v hv => (Option.some.inj hv).symm⟩
    · cases k with
      | single =>
        have hr : checkWord 5 (asRead (some .single) (s.wordAt a)) = _ := checkWord_injected_single hc
        rw [State.wordAt] at hr
        rw [hr]
        refine ⟨?_, fun v hv => (Option.some.inj hv).symm⟩
        simp only [State.wordAt, State.reportCorrected, State.raise_tableStore, State.offerTable, State.writeTableWords]
        exact written _
      | double =>
        have hr : checkWord 5 (asRead (some .double) (s.wordAt a)) = _ := checkWord_injected_double hc
        rw [State.wordAt] at hr
        rw [hr]
        exact ⟨rfl, fun v hv => by cases hv⟩
  refine ⟨⟨fun b hb => ?_, fun y => by rw [State.readTableWord_side]⟩, fun hc => (key hc).2⟩
  by_cases hba : b = a
  · subst hba; exact (key hb).1
  · exact (s.readTableWord_store x x a).2.1 b hba

theorem State.raisePoison_reread (s : State) (x : Side) (d : Nat) : s.Rereads (s.raisePoison x d) :=
  (State.Rereads.onTables s x (fun d => { d with poisonCond := true }) rfl).trans (.raise _ _ _)

theorem State.endPoisonIfHealed_reread (s : State) (x : Side) : s.Rereads (s.endPoisonIfHealed x) := by
  unfold State.endPoisonIfHealed
  dsimp only
  split
  · exact (State.Rereads.onTables s x (fun d => { d with poisonCond := false }) rfl).trans (.endFault _ _)
  · exact .refl s

/-- A read of a word of a bank that is stored without error delivers its data or nothing (R155, R156). -/
theorem State.readBankWord_reread (s : State) (x : Side) (tb : TableId) (p : PhysBank) (j : Nat) :
    s.Rereads (s.readBankWord x tb p j).2 ∧
      (checkWord 5 (s.wordAt (tableAddr x tb p j)) = .clean →
        ∀ v, (s.readBankWord x tb p j).1 = some v → v = dataOf 16 (s.wordAt (tableAddr x tb p j))) := by
  obtain ⟨hread, hdata⟩ := s.readTableWord_reread x (tableAddr x tb p j)
  rw [State.readBankWord_eq]
  split
  · next v hv => exact ⟨hread, fun hc w hw => hdata hc w (hv.trans hw)⟩
  · have hpoison := hread.trans (State.Rereads.onTables _ x (fun d =>
      { d with ctl := d.ctl.set tb ((((s.readTableWord x (tableAddr x tb p j)).2.side x).tables.ctl.get tb).poisonAt p j) }) rfl)
    refine ⟨?_, fun _ v hv => by cases hv⟩
    dsimp only
    split
    · exact hpoison.trans (State.raisePoison_reread _ _ _)
    · exact hpoison

theorem State.readBankWords_reread (x : Side) (tb : TableId) (p : PhysBank) (js : List Nat) (s : State) :
    s.Rereads (State.readBankWords x tb p js s).2 := by
  induction js generalizing s with
  | nil => exact .refl s
  | cons j js ih => exact (s.readBankWord_reread x tb p j).1.trans (ih _)

theorem State.copyTable_reread (s : State) (x : Side) (tb : TableId) : s.Rereads (s.copyTable x tb).2 := by
  unfold State.copyTable
  dsimp only
  split
  · exact .refl s
  · split <;> exact State.readBankWords_reread _ _ _ _ s

theorem State.copyTables_reread (x : Side) (tbs : List TableId) (acc : PerTable (List Word)) (s : State) :
    s.Rereads (State.copyTables x tbs acc s).2 := by
  induction tbs generalizing acc s with
  | nil => exact .refl s
  | cons tb tbs ih => exact (s.copyTable_reread x tb).trans (ih _ _)

theorem State.checkPoisonAtStart_reread (s : State) (x : Side) : s.Rereads (s.checkPoisonAtStart x) := by
  unfold State.checkPoisonAtStart
  dsimp only
  split
  · exact .refl s
  split
  · exact State.raisePoison_reread _ _ _
  split
  · exact State.raisePoison_reread _ _ _
  · exact .refl s

theorem State.readOn_reread (x : Side) (tb : TableId) (p : PhysBank) (k : Nat) (vs : List Word) (s : State) :
    s.Rereads (State.readOn x tb p k vs s).2 := by
  induction k generalizing vs s with
  | zero => exact .refl s
  | succ k ih =>
    have h := (s.readBankWord_reread x tb p vs.length).1
    unfold State.readOn
    dsimp only
    split
    · exact h.trans (ih _ _)
    · exact h

theorem State.runChecks_reread (x : Side) (tb : TableId) (p : PhysBank) (cs : List ContentCheck) (vs : List Word) (s : State) :
    s.Rereads (State.runChecks x tb p cs vs s).2 := by
  induction cs generalizing vs s with
  | nil =>
    have h := State.readOn_reread x tb p (tb.words - vs.length) vs s
    unfold State.runChecks
    dsimp only
    split <;> exact h
  | cons c cs ih =>
    have h := State.readOn_reread x tb p (c.needs - vs.length) vs s
    unfold State.runChecks
    dsimp only
    split
    · exact h
    split
    · exact h.trans (ih _ _)
    · exact h

theorem State.validate_reread (x : Side) (tbs : List TableId) (s : State) : s.Rereads (State.validate x tbs s).2 := by
  induction tbs generalizing s with
  | nil => exact .refl s
  | cons tb tbs ih =>
    have h := State.runChecks_reread x tb ((s.side x).tables.ctl.get tb).active.other (contentChecks tb.kind) [] s
    unfold State.validate
    dsimp only
    split
    · exact h.trans (ih _)
    · exact h
    · exact h

theorem State.deviceAddress_reread (s : State) (x : Side) : s.Rereads (s.deviceAddress x).2 := by
  unfold State.deviceAddress
  dsimp only
  split
  · exact .refl s
  split <;> exact (s.readBankWord_reread x _ _ _).1

theorem State.loseEntry_reread (s : State) (x : Side) : s.Rereads (s.loseEntry x) :=
  (State.Rereads.onTables s x (fun d => { d with defectLoss := true }) rfl).trans (State.raisePoison_reread _ _ _)

theorem State.readEntry_reread (s : State) (x : Side) (i : Nat) : s.Rereads (s.readEntry x i).2 := by
  have h := (s.readTableWord_reread x (poolAddr x s.tableStore.leftShare i)).1.trans
    (State.readTableWord_reread _ x (poolAddr x s.tableStore.leftShare i + 1)).1
  unfold State.readEntry
  dsimp only
  split <;> exact h

theorem State.clearDefectLoss_reread (s : State) (x : Side) : s.Rereads (s.clearDefectLoss x) := by
  unfold State.clearDefectLoss
  split
  · exact (State.Rereads.onTables s x (fun d => { d with defectLoss := false }) rfl).trans (State.endPoisonIfHealed_reread _ x)
  · exact .refl s

end Sys2Proof.Machine
end

section
/-! What the edits make of a defect list, and how the sites of an edit directive are judged (R56, R57, R166 to R168). -/

namespace Sys2Proof.Machine

/-! ## One edit on a list in site order (R57, R166) -/

/-- The order of a defect list: by row, then by column (R166). -/
def SiteOrder (a b : DefectEntry) : Prop := a.row < b.row ∨ (a.row = b.row ∧ a.col < b.col)

theorem siteBefore_iff {r1 c1 r2 c2 : Nat} : siteBefore r1 c1 r2 c2 = true ↔ r1 < r2 ∨ (r1 = r2 ∧ c1 < c2) := by
  simp [siteBefore]

theorem lowerClass_toNat (a b : BitVec 2) : (lowerClass a b).toNat = min a.toNat b.toNat := by
  unfold lowerClass
  split
  · next h => exact (Nat.min_eq_left (BitVec.le_def.mp h)).symm
  · next h => exact (Nat.min_eq_right (Nat.le_of_lt (BitVec.lt_def.mp (BitVec.not_le.mp h)))).symm

/-- ADD makes entries of the site alone, beside those of the list. -/
theorem mem_addSite {row col : Nat} {cls : BitVec 2} {es : List DefectEntry} {e : DefectEntry} (h : e ∈ addSite row col cls es) :
    e ∈ es ∨ (e.row = row ∧ e.col = col ∧ (e.cls = cls ∨ ∃ d ∈ es, e.cls = lowerClass d.cls cls)) := by
  induction es with
  | nil =>
    cases List.mem_singleton.mp h
    exact .inr ⟨rfl, rfl, .inl rfl⟩
  | cons d es ih =>
    unfold addSite at h
    split at h
    · next hd =>
      obtain rfl | h := List.mem_cons.mp h
      · exact .inr ⟨hd.1, hd.2, .inr ⟨d, List.mem_cons_self, rfl⟩⟩
      · exact .inl (List.mem_cons_of_mem _ h)
    split at h
    · obtain rfl | h := List.mem_cons.mp h
      · exact .inr ⟨rfl, rfl, .inl rfl⟩
      · exact .inl h
    · obtain rfl | h := List.mem_cons.mp h
      · exact .inl List.mem_cons_self
      · obtain h | ⟨hr, hc, h⟩ := ih h
        · exact .inl (List.mem_cons_of_mem _ h)
        · exact .inr ⟨hr, hc, h.imp_right fun ⟨u, hu, h⟩ => ⟨u, List.mem_cons_of_mem _ hu, h⟩⟩

/-- ADD keeps a list in site order (R57). -/
theorem addSite_ordered (row col : Nat) (cls : BitVec 2) {es : List DefectEntry} (h : es.Pairwise SiteOrder) :
    (addSite row col cls es).Pairwise SiteOrder := by
  induction es with
  | nil => exact List.pairwise_singleton ..
  | cons d es ih =>
    obtain ⟨hd, hes⟩ := List.pairwise_cons.mp h
    unfold addSite
    split
    · exact List.pairwise_cons.mpr ⟨hd, hes⟩
    next hne =>
    split
    · next hb =>
      refine List.pairwise_cons.mpr ⟨fun e he => ?_, h⟩
      rw [siteBefore_iff] at hb
      obtain rfl | he := List.mem_cons.mp he
      · exact hb
      · have := hd e he
        unfold SiteOrder at this ⊢
        dsimp only
        omega
    · next hb =>
      refine List.pairwise_cons.mpr ⟨fun e he => ?_, ih hes⟩
      obtain he | ⟨hr, hc, -⟩ := mem_addSite he
      · exact hd e he
      · rw [siteBefore_iff] at hb
        unfold SiteOrder
        omega

/-- The entries after an ADD: those of other sites, and one of the site with the lower of its classes (R57). -/
theorem mem_addSite_iff {row col : Nat} {cls : BitVec 2} {es : List DefectEntry} (h : es.Pairwise SiteOrder) (e : DefectEntry) :
    e ∈ addSite row col cls es ↔ (e ∈ es ∧ ¬ (e.row = row ∧ e.col = col)) ∨
      (e.row = row ∧ e.col = col ∧
        ((e.cls = cls ∧ ∀ d ∈ es, ¬ (d.row = row ∧ d.col = col)) ∨
          ∃ d ∈ es, d.row = row ∧ d.col = col ∧ e.cls.toNat = min d.cls.toNat cls.toNat)) := by
  have new : e = { row := row, col := col, cls := cls } ↔ e.row = row ∧ e.col = col ∧ e.cls = cls := by
    cases e; simp
  induction es with
  | nil => simp [addSite, new]
  | cons d es ih =>
    obtain ⟨hd, hes⟩ := List.pairwise_cons.mp h
    have later : ∀ u ∈ es, ∀ r c, r < d.row ∨ (r = d.row ∧ c ≤ d.col) → ¬ (u.row = r ∧ u.col = c) := fun u hu r c hle => by
      have := hd u hu
      unfold SiteOrder at this
      omega
    unfold addSite
    split
    · next hsite =>
      -- the head has the site: it alone changes
      have free := fun u hu => later u hu row col (.inr ⟨hsite.1.symm, Nat.le_of_eq hsite.2.symm⟩)
      have head : e = { d with cls := lowerClass d.cls cls } ↔
          e.row = row ∧ e.col = col ∧ e.cls.toNat = min d.cls.toNat cls.toNat := by
        rw [← lowerClass_toNat, ← BitVec.toNat_eq, ← hsite.1, ← hsite.2]
        cases e; simp
      simp only [List.forall_mem_cons, List.exists_mem_cons_iff]
      rw [List.mem_cons, List.mem_cons, head]
      constructor
      · rintro (⟨hr, hc, hm⟩ | he)
        · exact .inr ⟨hr, hc, .inr (.inl ⟨hsite.1, hsite.2, hm⟩)⟩
        · exact .inl ⟨.inr he, free e he⟩
      · rintro (⟨rfl | he, hn⟩ | ⟨hr, hc, ⟨-, hn, -⟩ | ⟨-, -, hm⟩ | ⟨u, hu, hur, huc, -⟩⟩)
        · exact absurd hsite hn
        · exact .inr he
        · exact absurd hsite hn
        · exact .inl ⟨hr, hc, hm⟩
        · exact absurd ⟨hur, huc⟩ (free u hu)
    next hsite =>
    split
    · next hb =>
      -- the site comes before the whole list
      rw [siteBefore_iff] at hb
      have free : ∀ u ∈ d :: es, ¬ (u.row = row ∧ u.col = col) :=
        List.forall_mem_cons.mpr ⟨hsite, fun u hu => later u hu row col (by omega)⟩
      rw [List.mem_cons, new]
      constructor
      · rintro (⟨hr, hc, hm⟩ | he)
        · exact .inr ⟨hr, hc, .inl ⟨hm, free⟩⟩
        · exact .inl ⟨he, free e he⟩
      · rintro (⟨he, -⟩ | ⟨hr, hc, ⟨hm, -⟩ | ⟨u, hu, hur, huc, -⟩⟩)
        · exact .inr he
        · exact .inl ⟨hr, hc, hm⟩
        · exact absurd ⟨hur, huc⟩ (free u hu)
    · -- the site comes after the head
      simp only [List.forall_mem_cons, List.exists_mem_cons_iff]
      simp only [List.mem_cons, ih hes]
      constructor
      · rintro (rfl | ⟨he, hn⟩ | ⟨hr, hc, ⟨hm, hn⟩ | hm⟩)
        · exact .inl ⟨.inl rfl, hsite⟩
        · exact .inl ⟨.inr he, hn⟩
        · exact .inr ⟨hr, hc, .inl ⟨hm, hsite, hn⟩⟩
        · exact .inr ⟨hr, hc, .inr (.inr hm)⟩
      · rintro (⟨rfl | he, hn⟩ | ⟨hr, hc, ⟨hm, -, hn⟩ | ⟨hdr, hdc, -⟩ | hm⟩)
        · exact .inl rfl
        · exact .inr (.inl ⟨he, hn⟩)
        · exact .inr (.inr ⟨hr, hc, .inl ⟨hm, hn⟩⟩)
        · exact absurd ⟨hdr, hdc⟩ hsite
        · exact .inr (.inr ⟨hr, hc, .inr hm⟩)

theorem removeSite_sublist (row col : Nat) (es : List DefectEntry) : (removeSite row col es).Sublist es := List.filter_sublist

theorem mem_removeSite {row col : Nat} {es : List DefectEntry} {e : DefectEntry} :
    e ∈ removeSite row col es ↔ e ∈ es ∧ ¬ (e.row = row ∧ e.col = col) := by
  rw [removeSite, List.mem_filter, Bool.not_eq_true', Bool.and_eq_false_iff, decide_eq_false_iff_not, decide_eq_false_iff_not,
    ← Classical.not_and_iff_not_or_not]

/-! ## The sites of a directive (R56) -/

theorem sitesOf_length (ws : List Word) : (sitesOf ws).length = ws.length / 2 := by
  induction ws using sitesOf.induct with
  | case1 a b ws ih => simp only [sitesOf, List.length_cons, ih]; omega
  | case2 ws h =>
    match ws with
    | [] => rfl
    | [_] => simp [sitesOf]
    | a :: b :: ws => exact absurd rfl (h a b ws)

/-- The class of a site is in the two high bits of its second word. -/
theorem sitesOf_cls {ws : List Word} {k : Nat} {w : Word} (h : ws[2 * k + 1]? = some w) :
    ∃ e ∈ sitesOf ws, e.cls = w.extractLsb' 14 2 := by
  induction ws using sitesOf.induct generalizing k with
  | case1 a b ws ih =>
    cases k with
    | zero =>
      cases h
      exact ⟨_, List.mem_cons_self, rfl⟩
    | succ k =>
      obtain ⟨e, he, hc⟩ := ih (k := k) h
      exact ⟨e, List.mem_cons_of_mem _ he, hc⟩
  | case2 ws hno =>
    match ws with
    | [] => cases h
    | [_] => simp at h
    | a :: b :: ws => exact absurd rfl (hno a b ws)

/-! ## The judgement of the sites in order (R167, R168) -/

theorem listed_iff {row col : Nat} {es : List DefectEntry} : listed row col es = true ↔ ∃ d ∈ es, d.row = row ∧ d.col = col := by
  simp [listed]

theorem EditKind.accepts_add {share held : Nat} {list : List DefectEntry} {e : DefectEntry} :
    EditKind.add.accepts share held list e = true ↔ e.row ≤ 2559 ∧ e.col ≤ 1919 ∧ held < 64 ∧
      ((∃ d ∈ list, d.row = e.row ∧ d.col = e.col) ∨ list.length < share) := by
  unfold EditKind.accepts
  split
  · next h => exact ⟨fun g => (by cases g), fun g => by omega⟩
  · next h =>
    simp only [Bool.or_eq_true, listed_iff, decide_eq_true_eq]
    exact ⟨fun g => ⟨by omega, by omega, by omega, g⟩, fun g => g.2.2.2⟩

theorem EditKind.accepts_remove {share held : Nat} {list : List DefectEntry} {e : DefectEntry} :
    EditKind.remove.accepts share held list e = true ↔ e.row ≤ 2559 ∧ e.col ≤ 1919 ∧ held < 64 ∧
      ∃ d ∈ list, d.row = e.row ∧ d.col = e.col := by
  unfold EditKind.accepts
  split
  · next h => exact ⟨fun g => (by cases g), fun g => by omega⟩
  · next h =>
    rw [listed_iff]
    exact ⟨fun g => ⟨by omega, by omega, by omega, g⟩, fun g => g.2.2.2⟩

theorem EditKind.accepts_onSensor {k : EditKind} {share held : Nat} {list : List DefectEntry} {e : DefectEntry}
    (h : k.accepts share held list e = true) : OnSensor e.row e.col := by
  cases k with
  | add => exact ⟨(accepts_add.mp h).1, (accepts_add.mp h).2.1⟩
  | remove => exact ⟨(accepts_remove.mp h).1, (accepts_remove.mp h).2.1⟩

/-- Every edit accepted is that of a site on the sensor. -/
theorem EditKind.mem_judge {k : EditKind} {share i held : Nat} {list sites : List DefectEntry} {d : DefectEdit}
    (h : d ∈ (k.judge share i held list sites).1) : ∃ e ∈ sites, d = k.edit e ∧ OnSensor e.row e.col := by
  induction sites generalizing i held list with
  | nil => cases h
  | cons e es ih =>
    unfold EditKind.judge at h
    dsimp only at h
    split at h
    · next ha =>
      obtain rfl | h := List.mem_cons.mp h
      · exact ⟨e, List.mem_cons_self, rfl, accepts_onSensor ha⟩
      · obtain ⟨u, hu, g⟩ := ih h
        exact ⟨u, List.mem_cons_of_mem _ hu, g⟩
    · obtain ⟨u, hu, g⟩ := ih h
      exact ⟨u, List.mem_cons_of_mem _ hu, g⟩

/-- As many edits are accepted as there are sites exactly where none is refused. -/
theorem EditKind.judge_count (k : EditKind) (share i held : Nat) (list sites : List DefectEntry) :
    (k.judge share i held list sites).1.length ≤ sites.length ∧
      ((k.judge share i held list sites).1.length = sites.length ↔ (k.judge share i held list sites).2 = none) := by
  induction sites generalizing i held list with
  | nil => exact ⟨Nat.le_refl _, by simp [EditKind.judge]⟩
  | cons e es ih =>
    unfold EditKind.judge
    dsimp only
    split
    · obtain ⟨hle, hiff⟩ := ih (i + 1) (held + 1) (applyEdit list (k.edit e))
      exact ⟨Nat.succ_le_succ hle, by simpa using hiff⟩
    · obtain ⟨hle, -⟩ := ih (i + 1) held list
      exact ⟨Nat.le_succ_of_le hle, by simp only [List.length_cons]; constructor <;> intro h; omega; cases h⟩

/-- One site more is judged against what those before it made of the list. -/
theorem EditKind.judge_concat (k : EditKind) (share i held : Nat) (list sites : List DefectEntry) (e : DefectEntry) :
    k.judge share i held list (sites ++ [e]) =
      (let r := k.judge share i held list sites
       if k.accepts share (held + r.1.length) (applyEdits list r.1) e then (r.1 ++ [k.edit e], r.2)
       else (r.1, r.2.or (some (i + sites.length)))) := by
  induction sites generalizing i held list with
  | nil => simp [EditKind.judge, applyEdits]
  | cons u us ih =>
    simp only [List.cons_append, EditKind.judge]
    have hi : i + 1 + us.length = i + (u :: us).length := by simp only [List.length_cons]; omega
    split
    · have hh : ∀ n, held + 1 + n = held + (n + 1) := fun n => by omega
      simp only [ih, hi, hh, List.length_cons, applyEdits, List.foldl_cons]
      split
      · next hlast => exact (if_pos hlast).symm
      · next hlast => exact (if_neg hlast).symm
    · simp only [ih, hi]
      split <;> rfl

/-- Whether the site of an index is accepted: it is judged with the edits pending and those accepted before it. -/
def EditKind.verdict (k : EditKind) (share held : Nat) (list sites : List DefectEntry) (m : Nat) : Bool :=
  let r := k.judge share 0 held list (sites.take m)
  sites[m]?.any (fun e => k.accepts share (held + r.1.length) (applyEdits list r.1) e)

/-- The edits made of the first sites: those of the sites accepted, in their order; the index answered is that of the first refused. -/
theorem EditKind.judge_take (k : EditKind) (share held : Nat) (list sites : List DefectEntry) (n : Nat) (hn : n ≤ sites.length) :
    k.judge share 0 held list (sites.take n) =
      (((sites.take n).zipIdx.filter (fun q => k.verdict share held list sites q.2)).map (fun q => k.edit q.1),
        (List.range n).find? (fun m => !k.verdict share held list sites m)) := by
  induction n with
  | zero => rfl
  | succ n ih =>
    have hlt : n < sites.length := hn
    have hv : k.verdict share held list sites n = k.accepts share (held + (k.judge share 0 held list (sites.take n)).1.length)
        (applyEdits list (k.judge share 0 held list (sites.take n)).1) sites[n] := by
      simp [EditKind.verdict, List.getElem?_eq_getElem hlt]
    rw [List.take_add_one, List.getElem?_eq_getElem hlt, Option.toList_some, EditKind.judge_concat, List.zipIdx_append, List.filter_append,
      List.range_succ, List.find?_append]
    dsimp only
    rw [← hv, ih (Nat.le_of_lt hlt)]
    split
    · next h => simp [Nat.min_eq_left (Nat.le_of_lt hlt), h]
    · next h => simp [Nat.min_eq_left (Nat.le_of_lt hlt), Bool.eq_false_iff.mpr h]

/-- Every site removed from an empty list is refused (R168). -/
theorem EditKind.judge_remove_nil (share i held : Nat) (sites : List DefectEntry) (h : sites ≠ []) :
    EditKind.remove.judge share i held [] sites = ([], some i) := by
  have refused : ∀ e, EditKind.remove.accepts share held [] e = false := fun e => by
    rw [← Bool.not_eq_true, accepts_remove]
    rintro ⟨-, -, -, d, hd, -⟩
    cases hd
  have edits : ∀ i sites, (EditKind.remove.judge share i held [] sites).1 = [] := fun i sites => by
    induction sites generalizing i with
    | nil => rfl
    | cons e es ih => simp [EditKind.judge, refused, ih]
  cases sites with
  | nil => exact absurd rfl h
  | cons e es => simp [EditKind.judge, refused, edits]

end Sys2Proof.Machine
end

section
/-! The content checks of COMMIT are the rules of the tables, and each reads no word beyond those it needs (R97, R160). -/

namespace Sys2Proof.Machine

/-- A check answers alike on words that agree where it needs them. -/
def ContentCheck.ReadsNeeds (c : ContentCheck) : Prop :=
  ∀ vs ws : List Word, (∀ j, j < c.needs → vs.getD j 0 = ws.getD j 0) → (c.passes vs = true ↔ c.passes ws = true)

section

variable {vs ws : List Word} {n : Nat}

theorem numAt_congr (h : ∀ j, j < n → vs.getD j 0 = ws.getD j 0) (j : Nat) (hj : j < n) : numAt vs j = numAt ws j :=
  congrArg BitVec.toNat (h j hj)

theorem intAt_congr (h : ∀ j, j < n → vs.getD j 0 = ws.getD j 0) (j : Nat) (hj : j < n) : intAt vs j = intAt ws j :=
  congrArg BitVec.toInt (h j hj)

theorem windowAt_congr (h : ∀ j, j < n → vs.getD j 0 = ws.getD j 0) (j : Nat) (hj : j + 3 < n) : windowAt vs j = windowAt ws j := by
  rw [windowAt, windowAt, numAt_congr h j (by omega), numAt_congr h (j + 1) (by omega), numAt_congr h (j + 2) (by omega),
    numAt_congr h (j + 3) hj]

end

theorem inRange_readsNeeds (j lo hi : Nat) : (inRange j lo hi).ReadsNeeds := fun vs ws h => by
  simp only [inRange, Bool.and_eq_true, decide_eq_true_eq, numAt_congr h j (Nat.lt_succ_self j)]

theorem inRangeSigned_readsNeeds (j : Nat) (lo hi : Int) : (inRangeSigned j lo hi).ReadsNeeds := fun vs ws h => by
  simp only [inRangeSigned, Bool.and_eq_true, decide_eq_true_eq, intAt_congr h j (Nat.lt_succ_self j)]

theorem nodeCheck_readsNeeds (top k : Nat) : (nodeCheck top k).ReadsNeeds := fun vs ws h => by
  simp only [nodeCheck, Bool.and_eq_true, Bool.or_eq_true, decide_eq_true_eq, numAt_congr h k (Nat.lt_succ_self k),
    numAt_congr h (k - 1) (Nat.lt_succ_of_le (Nat.sub_le k 1))]

theorem markerCheck_readsNeeds (m : Nat) : (markerCheck m).ReadsNeeds := fun vs ws h => by
  replace h : ∀ j, j < 24 + 2 * m → vs.getD j 0 = ws.getD j 0 := h
  have hn := numAt_congr h
  simp only [markerCheck, Bool.and_eq_true, Bool.or_eq_true, decide_eq_true_eq, hn 21 (by omega), hn (22 + 2 * m) (by omega),
    h (23 + 2 * m) (by omega)]

theorem layoutChecks_readNeeds : ∀ c ∈ layoutChecks, c.ReadsNeeds := by
  simp only [layoutChecks, List.forall_mem_append, List.forall_mem_cons, List.forall_mem_map, List.not_mem_nil, IsEmpty.forall_iff,
    implies_true, and_true]
  refine ⟨⟨⟨?_, ?_, ?_, ?_, ?_, ?_, ?_, ?_, ?_, inRange_readsNeeds _ _ _, inRange_readsNeeds _ _ _⟩,
    fun m _ => markerCheck_readsNeeds m⟩, inRange_readsNeeds _ _ _, inRange_readsNeeds _ _ _, ?_, inRange_readsNeeds _ _ _,
    inRange_readsNeeds _ _ _⟩ <;>
  · intro vs ws h
    simp (disch := decide) only [Bool.and_eq_true, Bool.or_eq_true, decide_eq_true_eq, numAt_congr h, intAt_congr h, windowAt_congr h]

theorem contentChecks_readNeeds (k : TableKind) : ∀ c ∈ contentChecks k, c.ReadsNeeds := by
  cases k with
  | tone => exact List.forall_mem_map.mpr fun j _ => nodeCheck_readsNeeds 1023 j
  | pan => exact List.forall_mem_map.mpr fun j _ => nodeCheck_readsNeeds 240 j
  | layout => exact layoutChecks_readNeeds
  | profile =>
    simp only [contentChecks, List.forall_mem_cons, List.not_mem_nil, IsEmpty.forall_iff, implies_true, and_true, inRange_readsNeeds,
      inRangeSigned_readsNeeds]
  | glareAtt =>
    refine List.forall_mem_map.mpr fun j _ vs ws h => ?_
    have hj := intAt_congr h j (Nat.lt_succ_self j)
    have hprev := intAt_congr h (j - 1) (Nat.lt_succ_of_le (Nat.sub_le j 1))
    have hfirst := intAt_congr h 0 (Nat.succ_pos j)
    dsimp only
    split <;> simp only [Bool.and_eq_true, decide_eq_true_eq, hj, hprev, hfirst]
  | ladder =>
    simp only [contentChecks, List.forall_mem_cons, List.not_mem_nil, IsEmpty.forall_iff, implies_true, and_true, inRange_readsNeeds]
    refine ⟨fun vs ws h => ?_, fun vs ws h => ?_⟩ <;> simp (disch := decide) only [decide_eq_true_eq, intAt_congr h]
  | sensor =>
    simp only [contentChecks, List.forall_mem_cons, List.not_mem_nil, IsEmpty.forall_iff, implies_true, and_true, inRange_readsNeeds,
      inRangeSigned_readsNeeds]
    intro vs ws h
    have hn : (readSensor vs).nLat = (readSensor ws).nLat := congrArg (fun w : Word => (w.extractLsb' 0 8).toNat) (h 0 (by decide))
    simp only [Bool.and_eq_true, decide_eq_true_eq, hn]

theorem Window.inGrid_iff (v : Window) : v.inGrid = true ↔ 1 ≤ v.w ∧ 1 ≤ v.h ∧ v.x + v.w ≤ 960 ∧ v.y + v.h ≤ 1280 := by
  simp [Window.inGrid, and_assoc]

theorem Window.within_iff (r v : Window) : r.within v = true ↔
    1 ≤ r.w ∧ 1 ≤ r.h ∧ v.x ≤ r.x ∧ r.x + r.w ≤ v.x + v.w ∧ v.y ≤ r.y ∧ r.y + r.h ≤ v.y + v.h := by
  simp [Window.within, and_assoc]

theorem stepsInRange_iff (v : Window) (paneH : Nat) : stepsInRange v paneH = true ↔
    1024 ≤ 1024 * v.w / 720 ∧ 1024 * v.w / 720 ≤ 3072 ∧ 1024 ≤ 1024 * v.h / paneH ∧ 1024 * v.h / paneH ≤ 3072 := by
  simp only [stepsInRange, Bool.and_eq_true, decide_eq_true_eq, and_assoc]
  exact Iff.rfl

/-- The words that pass every check of a table's kind meet its rules: the checks are the rules, one by one. -/
theorem passes_of_checks {tb : TableId} {ws : List Word} (h : ∀ c ∈ contentChecks tb.kind, c.passes ws = true) : tb.Passes ws := by
  unfold TableId.Passes
  cases hk : tb.kind <;> rw [hk] at h
  case layout =>
    simp only [contentChecks, layoutChecks, markerCheck, inRange, Window.inGrid_iff, Window.within_iff, stepsInRange_iff,
      List.forall_mem_map, List.forall_mem_cons, List.forall_mem_append, List.mem_range, List.not_mem_nil, IsEmpty.forall_iff,
      implies_true, and_true, Bool.and_eq_true, Bool.or_eq_true, decide_eq_true_eq] at h
    simp only [TableKind.rules, List.forall_mem_map, List.forall_mem_cons, List.forall_mem_append,
      List.mem_range, List.not_mem_nil, IsEmpty.forall_iff, implies_true, and_true]
    obtain ⟨⟨⟨⟨⟨h0, h0'⟩, h8⟩, hmain, hwide, hmainIn, hwideIn, hmainSteps, hwideSteps, hsign, hlimits, hrate, -, hcount⟩,
      hmarks⟩, hlate, hstale, ⟨hlost, hlost'⟩, hfresh, hlast⟩ := h
    refine ⟨⟨⟨⟨h0, h0', Nat.dvd_of_mod_eq_zero h8⟩, hmain, hwide, hmainIn, hwideIn, hmainSteps, hwideSteps, hsign, hlimits, hrate,
      hcount⟩, fun m hm hlt => ?_⟩, hlate, hstale, ⟨hlost, hlost'⟩, hfresh, hlast⟩
    obtain ⟨⟨⟨hpane, hrow⟩, hthick⟩, hthick'⟩ := (hmarks m hm).resolve_left (Nat.not_le.mpr hlt)
    exact ⟨hpane, hrow, hthick, hthick'⟩
  all_goals
    simp only [contentChecks, nodeCheck, inRange, inRangeSigned, readSensor,
      List.forall_mem_map, List.forall_mem_cons, List.mem_range, List.not_mem_nil, IsEmpty.forall_iff,
      implies_true, and_true, Bool.and_eq_true, Bool.or_eq_true, decide_eq_true_eq] at h
    simp only [TableKind.rules, List.forall_mem_map, List.forall_mem_cons,
      List.mem_range, List.not_mem_nil, IsEmpty.forall_iff, implies_true, and_true]
    grind

end Sys2Proof.Machine
end

section
/-! What every event keeps of the table store's laws: the stored words, the tables in use, the glare levels and the defect pool (R53, R57,
R86, R159 to R169). -/

namespace Sys2Proof.Machine

variable {s t u : State} {x y : Side} {es : List DefectEntry}

/-! ## The laws, side by side -/

/-- A pending edit is of a site on the sensor, and an ADD gives it a class (R56, R167). -/
def DefectEdit.Lawful : DefectEdit → Prop
  | .add row col cls => OnSensor row col ∧ cls ≠ 3
  | .remove row col => OnSensor row col

/-- A defect list in strict site order, of sites on the sensor with a class (R166). -/
structure ListLawful (es : List DefectEntry) : Prop where
  ordered : es.Pairwise SiteOrder
  entries : ∀ e ∈ es, OnSensor e.row e.col ∧ e.cls ≠ 3

/-- A defect list and the edits pending on it, within a share (R57, R167). -/
structure ListWithin (es : List DefectEntry) (edits : List DefectEdit) (share : Nat) : Prop where
  list : ListLawful es
  asked : ∀ d ∈ edits, d.Lawful
  held : es.length ≤ share
  projected : (applyEdits es edits).length ≤ share

theorem State.poolLawful_iff (s : State) : s.PoolLawful ↔
    s.tableStore.leftShare ≤ 4096 ∧ ∀ x, ∃ es, s.HoldsList x es ∧ ListWithin es (s.side x).dev.edits (s.shareOf x) := by
  refine and_congr_right fun _ => forall_congr' fun x => ?_
  constructor
  · rintro ⟨hedits, es, hholds, hord, hent, hlen, hproj⟩
    refine ⟨es, hholds, ⟨hord, hent⟩, fun d hd => ?_, hlen, hproj⟩
    cases d <;> exact hedits _ hd
  · rintro ⟨es, hholds, hlist, hedits, hlen, hproj⟩
    refine ⟨fun d hd => ?_, es, hholds, hlist.ordered, hlist.entries, hlen, hproj⟩
    cases d <;> exact hedits _ hd

/-- The laws of a side's tables: its working copies, the active banks, and the shadows that its pending commit names (R53, R159 to R163). -/
structure State.SideTablesLawful (s : State) (x : Side) : Prop where
  copies : ∀ tb : TableId, tb.Passes ((s.copies x).get tb)
  active : ∀ tb : TableId, tb.Passes (s.bankWords x tb ((s.side x).tables.ctl.get tb).active)
  named : ∀ k, (s.side x).tables.commit = some k → ∀ tb : TableId, k.tables.getLsbD tb.num = true →
    tb.Passes (s.bankWords x tb ((s.side x).tables.ctl.get tb).active.other)

theorem State.tablesLawful_iff (s : State) : s.TablesLawful ↔
    (∀ a, a < 10240 → checkWord 5 (s.wordAt a) = .clean) ∧ ∀ x, s.SideTablesLawful x := by
  refine and_congr_right fun _ => ⟨fun h x => ⟨fun tb => (h x tb _ rfl).1, fun tb => (h x tb _ rfl).2.1,
    fun k hk tb hb => (h x tb _ rfl).2.2 k hk hb⟩, fun h x tb c hc => ?_⟩
  subst hc
  exact ⟨(h x).copies tb, (h x).active tb, fun k hk hb => (h x).named k hk tb hb⟩

/-- The words of a lawful bank are stored without error. -/
theorem State.TablesLawful.bank_clean (h : s.TablesLawful) (x : Side) (tb : TableId) (p : PhysBank) {j : Nat} (hj : j < tb.words) :
    checkWord 5 (s.wordAt (tableAddr x tb p j)) = .clean := h.1 _ (by have := tableAddr_lt x tb p j hj; omega)

theorem State.bankWords_congr {tb : TableId} {p : PhysBank}
    (h : ∀ j, j < tb.words → t.wordAt (tableAddr x tb p j) = s.wordAt (tableAddr x tb p j)) : t.bankWords x tb p = s.bankWords x tb p :=
  List.map_congr_left fun j hj => congrArg (dataOf 16) (h j (List.mem_range.mp hj))

/-! ## The relation -/

/-- What the laws of the table store read of a side, beside the store's words. -/
structure Kept where
  copies : Option (PerTable (List Word))
  edits : List DefectEdit
  active : TableId → PhysBank
  named : Option (BitVec 13)
  count : Nat
  zones : List GlareZone

def SideState.kept (d : SideState) : Kept where
  copies := d.dev.copies
  edits := d.dev.edits
  active := fun tb => (d.tables.ctl.get tb).active
  named := d.tables.commit.map PendingCommit.tables
  count := d.tables.defectCount
  zones := d.glare.zones

/-- A change that keeps the laws of the table store and of the glare levels. -/
structure State.StoreSound (s t : State) : Prop where
  tables : s.TablesLawful → t.TablesLawful
  glare : s.TablesLawful → (∀ x, (s.side x).glare.Lawful) → ∀ x, (t.side x).glare.Lawful
  pool : s.TablesLawful → s.PoolLawful → t.PoolLawful

theorem State.StoreSound.refl (s : State) : s.StoreSound s := ⟨id, fun _ => id, fun _ => id⟩

theorem State.StoreSound.trans (h : s.StoreSound t) (k : t.StoreSound u) : s.StoreSound u where
  tables ht := k.tables (h.tables ht)
  glare ht hg := k.glare (h.tables ht) (h.glare ht hg)
  pool ht hp := k.pool (h.tables ht) (h.pool ht hp)

/-- Every part of the relation may take the tables' laws as given. -/
theorem State.StoreSound.of_lawful (h : s.TablesLawful → s.StoreSound t) : s.StoreSound t :=
  ⟨fun ht => (h ht).tables ht, fun ht => (h ht).glare ht, fun ht => (h ht).pool ht⟩

theorem State.HoldsList.congr (h : s.HoldsList x es) (hc : (t.side x).tables.defectCount = (s.side x).tables.defectCount)
    (hl : t.tableStore.leftShare = s.tableStore.leftShare)
    (hw : ∀ a, 2048 ≤ a → checkWord 5 (s.wordAt a) = .clean → t.wordAt a = s.wordAt a) : t.HoldsList x es := by
  obtain ⟨hcount, hentries⟩ := h
  have same : ∀ a (d : Word), 2048 ≤ a → s.wordAt a = encodeWord 22 d → t.wordAt a = encodeWord 22 d := fun a d hle ha =>
    (hw a hle (by rw [ha]; exact checkWord_encodeWord d)).trans ha
  have hge : ∀ i, 2048 ≤ poolAddr x s.tableStore.leftShare i := poolAddr_ge x s.tableStore.leftShare
  refine ⟨hc.trans hcount, fun i e he => ?_⟩
  obtain ⟨hr, hcol, h0, h1⟩ := hentries i e he
  rw [hl]
  exact ⟨hr, hcol, same _ _ (hge i) h0, same _ _ (Nat.le_succ_of_le (hge i)) h1⟩

theorem State.shareOf_congr (h : t.tableStore.leftShare = s.tableStore.leftShare) (x : Side) : t.shareOf x = s.shareOf x := by
  cases x <;> simp only [State.shareOf, h]

/-- What a side's tables need: its copies, active banks and commit, and the words of the banks that the laws speak of. -/
theorem State.SideTablesLawful.congr (h : s.SideTablesLawful x) (hcopies : (t.side x).dev.copies = (s.side x).dev.copies)
    (hactive : ∀ tb, ((t.side x).tables.ctl.get tb).active = ((s.side x).tables.ctl.get tb).active)
    (hnamed : (t.side x).tables.commit.map PendingCommit.tables = (s.side x).tables.commit.map PendingCommit.tables)
    (ha : ∀ tb, t.bankWords x tb ((s.side x).tables.ctl.get tb).active = s.bankWords x tb ((s.side x).tables.ctl.get tb).active)
    (hn : ∀ k, (s.side x).tables.commit = some k → ∀ tb : TableId, k.tables.getLsbD tb.num = true →
      t.bankWords x tb ((s.side x).tables.ctl.get tb).active.other = s.bankWords x tb ((s.side x).tables.ctl.get tb).active.other) :
    t.SideTablesLawful x := by
  refine ⟨fun tb => ?_, fun tb => ?_, fun k hc tb hb => ?_⟩
  · rw [State.copies, hcopies]
    exact h.copies tb
  · rw [hactive, ha]
    exact h.active tb
  · rw [hc] at hnamed
    obtain ⟨k', hc', heq⟩ := Option.map_eq_some_iff.mp hnamed.symm
    rw [← heq] at hb
    rw [hactive, hn k' hc' tb hb]
    exact h.named k' hc' tb hb

theorem State.SideTablesLawful.of_kept (h : s.SideTablesLawful x) (hk : (t.side x).kept = (s.side x).kept)
    (ha : ∀ tb, t.bankWords x tb ((s.side x).tables.ctl.get tb).active = s.bankWords x tb ((s.side x).tables.ctl.get tb).active)
    (hn : ∀ k, (s.side x).tables.commit = some k → ∀ tb : TableId, k.tables.getLsbD tb.num = true →
      t.bankWords x tb ((s.side x).tables.ctl.get tb).active.other = s.bankWords x tb ((s.side x).tables.ctl.get tb).active.other) :
    t.SideTablesLawful x :=
  h.congr (congrArg Kept.copies hk) (congrFun (congrArg Kept.active hk)) (congrArg Kept.named hk) ha hn

/-- What the pool's laws need: its words stored without error, the LEFT share, the edits and the lengths of the lists. -/
theorem State.PoolLawful.congr (h : s.PoolLawful) (hw : ∀ a, 2048 ≤ a → checkWord 5 (s.wordAt a) = .clean → t.wordAt a = s.wordAt a)
    (hl : t.tableStore.leftShare = s.tableStore.leftShare) (he : ∀ x, (t.side x).dev.edits = (s.side x).dev.edits)
    (hc : ∀ x, (t.side x).tables.defectCount = (s.side x).tables.defectCount) : t.PoolLawful := by
  rw [State.poolLawful_iff] at h ⊢
  refine ⟨hl.symm ▸ h.1, fun x => ?_⟩
  obtain ⟨es, hholds, hwithin⟩ := h.2 x
  refine ⟨es, hholds.congr (hc x) hl hw, ?_⟩
  rw [he, State.shareOf_congr hl]
  exact hwithin

/-- A change that leaves what the laws read, and the words stored without error, is sound. -/
theorem State.StoreSound.of_kept (hw : ∀ a, checkWord 5 (s.wordAt a) = .clean → t.wordAt a = s.wordAt a)
    (hl : t.tableStore.leftShare = s.tableStore.leftShare) (hk : ∀ x, (t.side x).kept = (s.side x).kept) : s.StoreSound t where
  tables h := by
    rw [State.tablesLawful_iff] at h ⊢
    obtain ⟨hclean, hsides⟩ := h
    refine ⟨fun a ha => by rw [hw a (hclean a ha)]; exact hclean a ha, fun x => ?_⟩
    have hbank : ∀ tb p, t.bankWords x tb p = s.bankWords x tb p := fun tb p => State.bankWords_congr fun j hj => hw _ (hclean _ (by
      have := tableAddr_lt x tb p j hj
      omega))
    exact (hsides x).of_kept (hk x) (fun tb => hbank tb _) fun _ _ tb _ => hbank tb _
  glare _ h x := by
    rw [Glare.Lawful, show (t.side x).glare.zones = (s.side x).glare.zones from congrArg Kept.zones (hk x)]
    exact h x
  pool _ h := h.congr (fun a _ => hw a) hl (fun x => congrArg Kept.edits (hk x)) fun x => congrArg Kept.count (hk x)

theorem State.StoreSound.of_eq (hm : t.tableStore.mem = s.tableStore.mem) (hl : t.tableStore.leftShare = s.tableStore.leftShare)
    (hk : ∀ x, (t.side x).kept = (s.side x).kept) : s.StoreSound t :=
  .of_kept (fun a _ => by rw [State.wordAt, State.wordAt, hm]) hl hk

theorem State.StoreSound.of_sides (hm : t.tableStore.mem = s.tableStore.mem) (hl : t.tableStore.leftShare = s.tableStore.leftShare)
    (hs : t.sides = s.sides) : s.StoreSound t := .of_eq hm hl fun x => by rw [State.side, State.side, hs]

theorem State.StoreSound.onSide {g : SideState → SideState} (hk : (g (s.side x)).kept = (s.side x).kept) : s.StoreSound (s.onSide x g) :=
  .of_eq rfl rfl fun y => by
    rw [State.side_onSide]
    split
    · next h => rw [h]; exact hk
    · rfl

/-- The table store's reads for a side are sound. -/
theorem State.StoreSound.ofReads (hf : s.TableFrame t x) (hr : s.Rereads t) : s.StoreSound t := by
  refine .of_kept hr.words hf.share fun y => ?_
  rcases Side.eq_or_eq_other x y with rfl | rfl
  · simp only [SideState.kept, hf.dev, hf.glare, hf.commit, hf.active, hr.count]
  · rw [hf.other]

end Sys2Proof.Machine
end

section
/-! Defect lists with their edits stay in site order, on the sensor and within the share (R57, R166 to R168). -/

namespace Sys2Proof.Machine

variable {es as bs read : List DefectEntry} {edits : List DefectEdit} {d : DefectEdit} {share : Nat}

/-! ## The sites of a list -/

/-- The sites of a list. -/
def sitesIn (es : List DefectEntry) : List (Nat × Nat) := es.map (fun e => (e.row, e.col))

theorem sitesIn_nodup (h : es.Pairwise SiteOrder) : (sitesIn es).Nodup := by
  refine List.Pairwise.map _ (fun a b hab heq => ?_) h
  simp only [Prod.mk.injEq] at heq
  unfold SiteOrder at hab
  omega

/-- An ordered list is no longer than one that has all its sites. -/
theorem length_le_of_sitesIn (h : as.Pairwise SiteOrder) (hs : sitesIn as ⊆ sitesIn bs) : as.length ≤ bs.length := by
  have hle := ((sitesIn_nodup h).subperm hs).length_le
  simpa [sitesIn] using hle

theorem mem_sitesIn_addSite {row col : Nat} {cls : BitVec 2} {p : Nat × Nat} :
    p ∈ sitesIn (addSite row col cls es) ↔ p = (row, col) ∨ p ∈ sitesIn es := by
  induction es with
  | nil => simp [addSite, sitesIn]
  | cons e es ih =>
    unfold sitesIn at ih
    unfold addSite
    split
    · next h => simp [sitesIn, h.1, h.2]
    split
    · simp [sitesIn]
    · simp only [sitesIn, List.map_cons, List.mem_cons, ih]
      exact or_left_comm

theorem mem_sitesIn_removeSite {row col : Nat} {p : Nat × Nat} :
    p ∈ sitesIn (removeSite row col es) ↔ p ∈ sitesIn es ∧ p ≠ (row, col) := by
  simp only [sitesIn, List.mem_map, mem_removeSite]
  constructor
  · rintro ⟨e, ⟨he, hn⟩, rfl⟩
    exact ⟨⟨e, he, rfl⟩, fun heq => hn (by simpa using heq)⟩
  · rintro ⟨⟨e, he, rfl⟩, hn⟩
    exact ⟨e, ⟨he, fun heq => hn (by simp [heq.1, heq.2])⟩, rfl⟩

/-- An edit of a list that has fewer sites leaves no more. -/
theorem sitesIn_applyEdit_mono (h : sitesIn as ⊆ sitesIn bs) (d : DefectEdit) : sitesIn (applyEdit as d) ⊆ sitesIn (applyEdit bs d) := by
  intro p hp
  cases d with
  | add row col cls => exact mem_sitesIn_addSite.mpr ((mem_sitesIn_addSite.mp hp).imp_right fun hp => h hp)
  | remove row col => exact mem_sitesIn_removeSite.mpr ((mem_sitesIn_removeSite.mp hp).imp_left fun hp => h hp)

theorem sitesIn_applyEdits_mono (h : sitesIn as ⊆ sitesIn bs) (edits : List DefectEdit) :
    sitesIn (applyEdits as edits) ⊆ sitesIn (applyEdits bs edits) := by
  induction edits generalizing as bs with
  | nil => exact h
  | cons d edits ih => exact ih (sitesIn_applyEdit_mono h d)

/-! ## The laws of a list -/

theorem lowerClass_cases (a b : BitVec 2) : lowerClass a b = a ∨ lowerClass a b = b := by
  unfold lowerClass; split <;> simp

theorem ListLawful.sublist (h : ListLawful es) (hs : read.Sublist es) : ListLawful read :=
  ⟨h.ordered.sublist hs, fun e he => h.entries e (hs.subset he)⟩

theorem ListLawful.applyEdit (h : ListLawful es) (hd : d.Lawful) : ListLawful (applyEdit es d) := by
  cases d with
  | add row col cls =>
    refine ⟨addSite_ordered row col cls h.ordered, fun e he => ?_⟩
    obtain he | ⟨hr, hc, hcls⟩ := mem_addSite he
    · exact h.entries e he
    · rw [hr, hc]
      refine ⟨hd.1, ?_⟩
      obtain hcls | ⟨u, hu, hcls⟩ := hcls
      · rw [hcls]; exact hd.2
      · rw [hcls]
        obtain hl | hl := lowerClass_cases u.cls cls
        · rw [hl]; exact (h.entries u hu).2
        · rw [hl]; exact hd.2
  | remove row col => exact h.sublist (removeSite_sublist row col es)

theorem ListLawful.applyEdits (h : ListLawful es) (hd : ∀ d ∈ edits, d.Lawful) : ListLawful (applyEdits es edits) := by
  induction edits generalizing es with
  | nil => exact h
  | cons d edits ih =>
    obtain ⟨hd, hrest⟩ := List.forall_mem_cons.mp hd
    exact ih (h.applyEdit hd) hrest

/-- Fewer entries leave no more with the same edits. -/
theorem applyEdits_length_le (h : ListLawful es) (hd : ∀ d ∈ edits, d.Lawful) (hs : read.Sublist es) :
    (applyEdits read edits).length ≤ (applyEdits es edits).length :=
  length_le_of_sitesIn ((h.sublist hs).applyEdits hd).ordered (sitesIn_applyEdits_mono (hs.map _).subset edits)

theorem ListWithin.sublist (h : ListWithin es edits share) (hs : read.Sublist es) : ListWithin read edits share where
  list := h.list.sublist hs
  asked := h.asked
  held := hs.length_le.trans h.held
  projected := (applyEdits_length_le h.list h.asked hs).trans h.projected

/-- A list with its edits applied has none left (R57). -/
theorem ListWithin.applied (h : ListWithin es edits share) : ListWithin (applyEdits es edits) [] share where
  list := h.list.applyEdits h.asked
  asked _ hd := by cases hd
  held := h.projected
  projected := h.projected

/-! ## The judgement keeps the projected list within the share (R167, R168) -/

/-- One site accepted leaves the projected list within the share. -/
theorem EditKind.accepts_length {k : EditKind} {held : Nat} {list : List DefectEntry} {e : DefectEntry} (hl : ListLawful list)
    (hlen : list.length ≤ share) (hd : (k.edit e).Lawful) (h : k.accepts share held list e = true) :
    (applyEdit list (k.edit e)).length ≤ share := by
  have hnew := (hl.applyEdit hd).ordered
  cases k with
  | add =>
    obtain ⟨-, -, -, ⟨u, hu, hr, hc⟩ | hroom⟩ := accepts_add.mp h
    · refine (length_le_of_sitesIn hnew fun p hp => ?_).trans hlen
      obtain rfl | hp := mem_sitesIn_addSite.mp hp
      · exact List.mem_map.mpr ⟨u, hu, by rw [hr, hc]⟩
      · exact hp
    · have hle : (applyEdit list (EditKind.add.edit e)).length ≤ (e :: list).length := by
        refine length_le_of_sitesIn hnew fun p hp => ?_
        obtain rfl | hp := mem_sitesIn_addSite.mp hp
        · exact List.mem_cons_self
        · exact List.mem_cons_of_mem _ hp
      exact hle.trans hroom
  | remove => exact ((removeSite_sublist e.row e.col list).length_le).trans hlen

theorem EditKind.judge_projected (k : EditKind) (share i held : Nat) {list : List DefectEntry} (sites : List DefectEntry)
    (hl : ListLawful list) (hlen : list.length ≤ share) (hcls : k = .add → ∀ e ∈ sites, e.cls ≠ 3) :
    (applyEdits list (k.judge share i held list sites).1).length ≤ share := by
  induction sites generalizing i held list with
  | nil => exact hlen
  | cons e es ih =>
    have hrest : k = .add → ∀ u ∈ es, u.cls ≠ 3 := fun hk u hu => hcls hk u (List.mem_cons_of_mem _ hu)
    unfold EditKind.judge
    dsimp only
    split
    · next ha =>
      have hd : (k.edit e).Lawful := by
        cases k with
        | add => exact ⟨accepts_onSensor ha, hcls rfl e List.mem_cons_self⟩
        | remove => exact accepts_onSensor ha
      exact ih (i + 1) (held + 1) (hl.applyEdit hd) (accepts_length hl hlen hd ha) hrest
    · exact ih (i + 1) held hl hlen hrest

/-- The edits that a directive appends keep a side's list within its share. -/
theorem ListWithin.judged (h : ListWithin es edits share) (k : EditKind) (i held : Nat) {sites : List DefectEntry}
    (hcls : k = .add → ∀ e ∈ sites, e.cls ≠ 3) :
    ListWithin es (edits ++ (k.judge share i held (applyEdits es edits) sites).1) share where
  list := h.list
  held := h.held
  asked d hd := by
    obtain hd | hd := List.mem_append.mp hd
    · exact h.asked d hd
    · obtain ⟨e, he, rfl, hsite⟩ := EditKind.mem_judge hd
      cases k with
      | add => exact ⟨hsite, hcls rfl e he⟩
      | remove => exact hsite
  projected := by
    have hp := EditKind.judge_projected k share i held sites (h.list.applyEdits h.asked) h.projected hcls
    rw [applyEdits, List.foldl_append]
    exact hp

end Sys2Proof.Machine
end

section
/-! The tables: what is read of a bank stored without error, the working copies, the validation, the swap and the load keep the laws of
the table store (R53, R155 to R164). -/

namespace Sys2Proof.Machine

variable {s t u : State} {x y : Side} {tb : TableId} {p : PhysBank} {content : List Word}

/-! ## What a bank's reads deliver -/

/-- A bank holds these words, stored without error. -/
structure State.HoldsBank (s : State) (x : Side) (tb : TableId) (p : PhysBank) (content : List Word) : Prop where
  clean : ∀ j, j < tb.words → checkWord 5 (s.wordAt (tableAddr x tb p j)) = .clean
  words : s.bankWords x tb p = content

theorem State.TablesLawful.holdsBank (h : s.TablesLawful) (x : Side) (tb : TableId) (p : PhysBank) :
    s.HoldsBank x tb p (s.bankWords x tb p) := ⟨fun _ hj => h.bank_clean x tb p hj, rfl⟩

theorem State.HoldsBank.reread (h : s.HoldsBank x tb p content) (hr : s.Rereads t) : t.HoldsBank x tb p content where
  clean j hj := by rw [hr.words _ (h.clean j hj)]; exact h.clean j hj
  words := (State.bankWords_congr fun j hj => hr.words _ (h.clean j hj)).trans h.words

theorem State.HoldsBank.length (h : s.HoldsBank x tb p content) : content.length = tb.words := by
  rw [← h.words, State.bankWords, List.length_map, List.length_range]

theorem State.HoldsBank.getElem? (h : s.HoldsBank x tb p content) {j : Nat} (hj : j < tb.words) :
    content[j]? = some (dataOf 16 (s.wordAt (tableAddr x tb p j))) := by
  rw [← h.words, State.bankWords, List.getElem?_map, List.getElem?_range hj]
  rfl

/-- A read of a word delivers what the bank holds there, or nothing (R156). -/
theorem State.HoldsBank.readBankWord (h : s.HoldsBank x tb p content) {j : Nat} (hj : j < tb.words) {v : Word}
    (hv : (s.readBankWord x tb p j).1 = some v) : content[j]? = some v := by
  rw [h.getElem? hj, (s.readBankWord_reread x tb p j).2 (h.clean j hj) v hv]

theorem State.HoldsBank.readBankWords (h : s.HoldsBank x tb p content) (js : List Nat) (hj : ∀ j ∈ js, j < tb.words)
    (hall : (State.readBankWords x tb p js s).1.all Option.isSome = true) :
    (State.readBankWords x tb p js s).1.map (fun v => v.getD 0) = js.map (fun j => content.getD j 0) := by
  induction js generalizing s with
  | nil => rfl
  | cons j js ih =>
    obtain ⟨hj, hrest⟩ := List.forall_mem_cons.mp hj
    simp only [State.readBankWords, List.all_cons, Bool.and_eq_true] at hall ⊢
    obtain ⟨v, hv⟩ := Option.isSome_iff_exists.mp hall.1
    have hd := h.readBankWord hj hv
    rw [List.map_cons, List.map_cons, ih (h.reread (s.readBankWord_reread x tb p j).1) hrest hall.2, hv,
      List.getD_eq_getElem?_getD, hd]

/-! ## Working copies (R53, R164) -/

/-- A working copy meets the rules of its table: it is the active bank's words or the ROM default. -/
theorem State.copyTable_passes (h : s.TablesLawful) (x : Side) (tb : TableId) : tb.Passes (s.copyTable x tb).1 := by
  by_cases hb : ((s.side x).tables.ctl.get tb).bad ((s.side x).tables.ctl.get tb).active = none
  · rw [State.copyTable_read hb]
    dsimp only
    split
    · next hall =>
      have hold := h.holdsBank x tb ((s.side x).tables.ctl.get tb).active
      rw [hold.readBankWords _ (fun j hj => List.mem_range.mp hj) hall]
      have hsame : (List.range tb.words).map (fun j => (s.bankWords x tb ((s.side x).tables.ctl.get tb).active).getD j 0) =
          s.bankWords x tb ((s.side x).tables.ctl.get tb).active :=
        List.map_congr_left fun j hj => by
          rw [List.getD_eq_getElem?_getD, hold.getElem? (List.mem_range.mp hj)]
          rfl
      rw [hsame]
      exact (((s.tablesLawful_iff).mp h).2 x).active tb
    · exact romTable_passes x tb
  · rw [State.copyTable_poisoned hb]
    exact romTable_passes x tb

theorem State.copyTables_passes (x : Side) (tbs : List TableId) (acc : PerTable (List Word)) (h : s.TablesLawful)
    (hacc : ∀ u : TableId, u.Passes (acc.get u)) (u : TableId) : u.Passes ((State.copyTables x tbs acc s).1.get u) := by
  induction tbs generalizing acc s with
  | nil => exact hacc u
  | cons tb tbs ih =>
    have hread := State.StoreSound.ofReads (s.copyTable_frame x tb) (s.copyTable_reread x tb)
    refine ih (acc.set tb (s.copyTable x tb).1) (hread.tables h) fun v => ?_
    rw [PerTable.get_set]
    split
    · next hv => rw [hv]; exact State.copyTable_passes h x tb
    · exact hacc v

theorem romTables_passes (x : Side) (u : TableId) : u.Passes ((romTables x).get u) := by
  have hrom : (romTables x).get u = romTable x u := by cases u <;> rfl
  rw [hrom]
  exact romTable_passes x u

/-- A change of one side keeps the tables' laws when it keeps those of its own. -/
theorem State.TablesLawful.onSide (h : s.TablesLawful) {g : SideState → SideState} (hx : (s.onSide x g).SideTablesLawful x) :
    (s.onSide x g).TablesLawful := by
  obtain ⟨hclean, hsides⟩ := (s.tablesLawful_iff).mp h
  refine (State.tablesLawful_iff _).mpr ⟨hclean, fun y => ?_⟩
  rcases Side.eq_or_eq_other x y with rfl | rfl
  · exact hx
  · exact (hsides x.other).of_kept (by rw [State.onSide_side_other]) (fun _ => rfl) fun _ _ _ _ => rfl

/-- A change of one side that leaves its edits and the length of its list keeps the pool's laws. -/
theorem State.PoolLawful.onSide (h : s.PoolLawful) {g : SideState → SideState} (he : (g (s.side x)).dev.edits = (s.side x).dev.edits)
    (hc : (g (s.side x)).tables.defectCount = (s.side x).tables.defectCount) : (s.onSide x g).PoolLawful := by
  refine h.congr (fun _ _ _ => rfl) rfl (fun y => ?_) fun y => ?_ <;> rw [State.side_onSide] <;> split
  · next hy => rw [hy, he]
  · rfl
  · next hy => rw [hy, hc]
  · rfl

/-- A change of a side's tables that leaves the glare levels, the edits and the length of the list. -/
theorem State.StoreSound.onSideTables {g : SideState → SideState}
    (ht : s.TablesLawful → (s.onSide x g).SideTablesLawful x) (hz : (g (s.side x)).glare.zones = (s.side x).glare.zones)
    (he : (g (s.side x)).dev.edits = (s.side x).dev.edits)
    (hc : (g (s.side x)).tables.defectCount = (s.side x).tables.defectCount) : s.StoreSound (s.onSide x g) where
  tables h := h.onSide (ht h)
  glare _ h y := by
    rw [State.side_onSide]
    split
    · rw [Glare.Lawful, hz]; exact h x
    · exact h y
  pool _ h := h.onSide he hc

/-- The working copies of a frame start are lawful (R53, R163). -/
theorem State.takeCopies_store (s : State) (x : Side) : s.StoreSound (s.takeCopies x) := by
  have hread := State.StoreSound.ofReads (State.copyTables_frame x TableId.all (romTables x) s)
    (State.copyTables_reread x TableId.all (romTables x) s)
  refine .of_lawful fun h => hread.trans (.onSideTables (fun ht => ?_) rfl rfl rfl)
  obtain ⟨-, hsides⟩ := (State.tablesLawful_iff _).mp ht
  refine ⟨fun tb => ?_, fun tb => ?_, fun k hk tb hb => ?_⟩
  · rw [State.copies, State.onSide_side]
    exact State.copyTables_passes x TableId.all (romTables x) h (romTables_passes x) tb
  · rw [State.onSide_side]
    exact (hsides x).active tb
  · rw [State.onSide_side] at hk ⊢
    exact (hsides x).named k hk tb hb

/-! ## Validation (R159, R160) -/

/-- A read run that comes to its end has delivered the bank's words up to there. -/
theorem State.HoldsBank.readOn (h : s.HoldsBank x tb p content) {k : Nat} {vs ws : List Word} (hvs : vs = content.take vs.length)
    (hlen : vs.length + k ≤ tb.words) (hr : (State.readOn x tb p k vs s).1 = .ok ws) : ws = content.take (vs.length + k) := by
  induction k generalizing vs s with
  | zero =>
    cases hr
    exact hvs
  | succ k ih =>
    have hread := (s.readBankWord_reread x tb p vs.length).1
    unfold State.readOn at hr
    dsimp only at hr
    split at hr
    · next v hv =>
      have hlast := h.readBankWord (by omega) hv
      have hnext : vs ++ [v] = content.take (vs ++ [v]).length := by
        rw [List.length_append, List.length_singleton, List.take_add_one, hlast, ← hvs]
        rfl
      have hend := ih (h.reread hread) hnext (by rw [List.length_append, List.length_singleton]; omega) hr
      rw [hend, List.length_append, List.length_singleton]
      congr 1
      omega
    · cases hr

theorem contentChecks_fit (tb : TableId) : ∀ c ∈ contentChecks tb.kind, c.needs ≤ tb.words := by
  cases tb <;> decide

/-- A bank whose checks all pass as it is read meets them with all its words. -/
theorem State.HoldsBank.runChecks (h : s.HoldsBank x tb p content) {cs : List ContentCheck} {vs : List Word}
    (hvs : vs = content.take vs.length) (hlen : vs.length ≤ tb.words) (hfit : ∀ c ∈ cs, c.needs ≤ tb.words)
    (hreads : ∀ c ∈ cs, c.ReadsNeeds) (hr : (State.runChecks x tb p cs vs s).1 = .pass) : ∀ c ∈ cs, c.passes content = true := by
  induction cs generalizing vs s with
  | nil => exact fun c hc => by cases hc
  | cons c cs ih =>
    obtain ⟨hfit, hfits⟩ := List.forall_mem_cons.mp hfit
    obtain ⟨hread, hreads⟩ := List.forall_mem_cons.mp hreads
    unfold State.runChecks at hr
    dsimp only at hr
    split at hr
    · cases hr
    · next ws hws =>
      split at hr
      · next hpass =>
        have htake := h.readOn hvs (by omega) hws
        have hwlen : ws.length = vs.length + (c.needs - vs.length) := by
          rw [htake, List.length_take, h.length]
          omega
        refine List.forall_mem_cons.mpr ⟨?_, ih (h.reread (State.readOn_reread x tb p _ vs s)) (hwlen ▸ htake) (by omega) hfits hreads hr⟩
        refine (hread ws content fun j hj => ?_).mp hpass
        rw [htake, List.getD_eq_getElem?_getD, List.getD_eq_getElem?_getD, List.getElem?_take, if_pos (by omega)]
      · cases hr

/-- The shadows that pass their validation meet the rules of their tables (R159). -/
theorem State.validate_passes (x : Side) (tbs : List TableId) (h : s.TablesLawful) (hr : (State.validate x tbs s).1 = .pass) :
    ∀ tb ∈ tbs, tb.Passes (s.bankWords x tb ((s.side x).tables.ctl.get tb).active.other) := by
  induction tbs generalizing s with
  | nil => exact fun tb htb => by cases htb
  | cons tb tbs ih =>
    have hframe := State.runChecks_frame x tb ((s.side x).tables.ctl.get tb).active.other (contentChecks tb.kind) [] s
    have hreread := State.runChecks_reread x tb ((s.side x).tables.ctl.get tb).active.other (contentChecks tb.kind) [] s
    unfold State.validate at hr
    dsimp only at hr
    split at hr
    · next hpass =>
      refine List.forall_mem_cons.mpr ⟨passes_of_checks ?_, fun u hu => ?_⟩
      · exact (h.holdsBank x tb _).runChecks rfl (Nat.zero_le _) (contentChecks_fit tb) (contentChecks_readNeeds tb.kind) hpass
      · have hrest := ih ((State.StoreSound.ofReads hframe hreread).tables h) hr u hu
        rwa [hframe.active, ((h.holdsBank x u _).reread hreread).words] at hrest
    · next hbad => rw [hbad] at hr; cases hr
    · next hbad => rw [hbad] at hr; cases hr

/-! ## Swap and commit (R159, R161, R162) -/

/-- The tables of a set have shadows that meet their rules. -/
def State.ShadowsPass (s : State) (x : Side) (set : BitVec 13) : Prop :=
  ∀ tb : TableId, set.getLsbD tb.num = true → tb.Passes (s.bankWords x tb ((s.side x).tables.ctl.get tb).active.other)

/-- An exchange of banks whose shadows meet their rules keeps the laws (R162). -/
theorem State.exchange_store (s : State) (x : Side) (c : PendingCommit) (hc : s.TablesLawful → s.ShadowsPass x c.tables) :
    s.StoreSound (s.exchange x c) := by
  refine .onSideTables (fun h => ?_) rfl rfl rfl
  obtain ⟨-, hsides⟩ := (State.tablesLawful_iff _).mp h
  refine ⟨fun tb => ?_, fun tb => ?_, fun k hk => ?_⟩
  · rw [State.copies, State.onSide_side]
    exact (hsides x).copies tb
  · rw [State.onSide_side, swapTables_get]
    split
    · next hb => exact hc h tb hb
    · exact (hsides x).active tb
  · rw [State.onSide_side] at hk; cases hk

/-- A commit held for its swap names shadows that meet their rules (R161). -/
theorem State.holdCommit_store (s : State) (x : Side) (c : PendingCommit) (hc : s.TablesLawful → s.ShadowsPass x c.tables) :
    s.StoreSound (s.onSide x (fun d => { d with tables := { d.tables with commit := some c } })) := by
  refine .onSideTables (fun h => ?_) rfl rfl rfl
  obtain ⟨-, hsides⟩ := (State.tablesLawful_iff _).mp h
  refine ⟨fun tb => ?_, fun tb => ?_, fun k hk tb hb => ?_⟩
  · rw [State.copies, State.onSide_side]
    exact (hsides x).copies tb
  · rw [State.onSide_side]
    exact (hsides x).active tb
  · rw [State.onSide_side] at hk ⊢
    cases hk
    exact hc h tb hb

theorem mem_namedTables {set : BitVec 13} {tb : TableId} : tb ∈ namedTables set ↔ set.getLsbD tb.num = true := by
  simp [namedTables, tb.mem_all]

/-- A validation that passes finds shadows that meet their rules, and leaves them. -/
theorem State.validate_shadowsPass {set : BitVec 13} (h : s.TablesLawful) (hpass : (State.validate x (namedTables set) s).1 = .pass) :
    (State.validate x (namedTables set) s).2.ShadowsPass x set := fun tb hb => by
  have hframe := State.validate_frame x (namedTables set) s
  rw [hframe.active, ((h.holdsBank x tb _).reread (State.validate_reread x (namedTables set) s)).words]
  exact State.validate_passes x (namedTables set) h hpass tb (mem_namedTables.mpr hb)

/-! ## Writes (R155, R158) -/

theorem State.wordAt_writeTableWords_out (s : State) {a b : Nat} {vs : List Word} (h : b < a ∨ a + vs.length ≤ b) :
    (s.writeTableWords a vs).wordAt b = s.wordAt b :=
  Mem.read_writeBlock_out _ _ _ _ (by rwa [List.length_map])

/-- The words of a block are stored without error (R155). -/
theorem State.wordAt_writeTableWords_in (s : State) (a : Nat) {vs : List Word} {j : Nat} (hj : j < vs.length) :
    (s.writeTableWords a vs).wordAt (a + j) = encodeWord 22 vs[j] := by
  refine (Mem.read_writeBlock_in _ _ _ j (by rwa [List.length_map])).trans ?_
  rw [List.getElem_map]

theorem State.writeTableWords_clean (s : State) (a : Nat) (vs : List Word) {b : Nat} (h : checkWord 5 (s.wordAt b) = .clean) :
    checkWord 5 ((s.writeTableWords a vs).wordAt b) = .clean := by
  by_cases hb : b < a ∨ a + vs.length ≤ b
  · rw [s.wordAt_writeTableWords_out hb]
    exact h
  · have heq : b = a + (b - a) := by omega
    rw [heq, s.wordAt_writeTableWords_in a (by omega)]
    exact checkWord_encodeWord _

/-- Two banks of tables that are not the same take disjoint runs of words (R153, R155). -/
theorem tableAddr_disjoint {x y : Side} {tb u : TableId} {p q : PhysBank} (h : x ≠ y ∨ tb ≠ u ∨ p ≠ q) {i j : Nat} (hi : i < tb.words)
    (hj : j < u.words) : tableAddr x tb p i ≠ tableAddr y u q j := by
  have htb := offset_fits tb
  have hu := offset_fits u
  by_cases hne : tb = u
  · have hblock : 2 * x.code + p.num ≠ 2 * y.code + q.num := by
      cases x <;> cases y <;> cases p <;> cases q <;> simp_all [Side.code, PhysBank.num]
    subst hne
    unfold tableAddr
    omega
  · have hd := TableId.disjoint hne
    unfold tableAddr
    omega

@[simp] theorem TableCtl.loaded_active (c : TableCtl) (o n : Nat) : (c.loaded o n).active = c.active := by
  unfold TableCtl.loaded
  dsimp only
  split
  · split <;> simp
  · rfl

theorem PhysBank.other_ne (p : PhysBank) : p.other ≠ p := by cases p <;> decide

/-- A load of a shadow that no pending commit names keeps the laws (R158). -/
theorem State.loadShadow_store (s : State) (x : Side) (tb : TableId) {o : Nat} {ws : List Word} (hfit : o + ws.length ≤ tb.words)
    (hn : (s.side x).tables.commitNames tb = false) : s.StoreSound (s.loadShadow x tb o ws) := by
  obtain ⟨w, hw⟩ : ∃ w, w = s.writeTableWords (tableAddr x tb ((s.side x).tables.ctl.get tb).active.other o) ws := ⟨_, rfl⟩
  obtain ⟨t, ht⟩ : ∃ t, t = s.loadShadow x tb o ws := ⟨_, rfl⟩
  have hword : ∀ a, t.wordAt a = w.wordAt a := fun a => by rw [ht, hw]; rfl
  have hkept : ∀ y, (t.side y).kept = (s.side y).kept := fun y => by
    rw [ht, State.loadShadow, State.side_onSide]
    split
    · next hy =>
      subst hy
      have hactive : ∀ u, ((((s.side y).tables.ctl.set tb (((s.side y).tables.ctl.get tb).loaded o ws.length)).get u).active) =
          ((s.side y).tables.ctl.get u).active := fun u => by
        rw [PerTable.get_set]
        split
        · next hu => rw [hu, TableCtl.loaded_active]
        · rfl
      exact congrArg (fun a => { (s.side y).kept with active := a }) (funext hactive)
    · rfl
  -- every bank but the shadow written has its words
  have hbank : ∀ y u p, (y ≠ x ∨ u ≠ tb ∨ p ≠ ((s.side x).tables.ctl.get tb).active.other) → t.bankWords y u p = s.bankWords y u p :=
    fun y u p hne => State.bankWords_congr fun j hj => by
      rw [hword, hw]
      refine s.wordAt_writeTableWords_out ?_
      by_contra hin
      refine tableAddr_disjoint hne hj (j := o + (tableAddr y u p j -
        tableAddr x tb ((s.side x).tables.ctl.get tb).active.other o)) (by omega) ?_
      unfold tableAddr at hin ⊢
      omega
  rw [← ht]
  refine ⟨fun h => ?_, fun _ h y => ?_, fun _ h => ?_⟩
  · obtain ⟨hclean, hsides⟩ := (s.tablesLawful_iff).mp h
    refine (t.tablesLawful_iff).mpr ⟨fun a ha => ?_, fun y => (hsides y).of_kept (hkept y) (fun u => hbank y u _ ?_) fun k hk u hu =>
      hbank y u _ ?_⟩
    · rw [hword, hw]
      exact s.writeTableWords_clean _ ws (hclean a ha)
    · by_contra hsame
      push Not at hsame
      obtain ⟨rfl, rfl, hp⟩ := hsame
      exact PhysBank.other_ne _ hp.symm
    · by_contra hsame
      push Not at hsame
      obtain ⟨rfl, rfl, -⟩ := hsame
      rw [SideTables.commitNames, hk] at hn
      exact absurd hu (by simpa using hn)
  · rw [Glare.Lawful, show (t.side y).glare.zones = (s.side y).glare.zones from congrArg Kept.zones (hkept y)]
    exact h y
  · refine h.congr (fun a ha _ => ?_) (by rw [ht]; rfl) (fun y => congrArg Kept.edits (hkept y)) fun y => congrArg Kept.count (hkept y)
    rw [hword, hw]
    refine s.wordAt_writeTableWords_out (.inr ?_)
    have hlast := offset_fits tb
    unfold tableAddr
    cases x <;> cases ((s.side _).tables.ctl.get tb).active.other <;> simp only [Side.code, PhysBank.num] <;> omega

end Sys2Proof.Machine
end

section
/-! The defect pool: its reads, its writes and the directives on it keep the laws of the table store (R57, R166 to R169). -/

namespace Sys2Proof.Machine

variable {s t u : State} {x y : Side} {es new : List DefectEntry} {edits : List DefectEdit}

/-! ## Reads of a list (R157, R169) -/

theorem State.HoldsList.reread (h : s.HoldsList x es) (hr : s.Rereads t) (hl : t.tableStore.leftShare = s.tableStore.leftShare) :
    t.HoldsList x es := h.congr (hr.count x) hl fun a _ => hr.words a

/-- A read of an entry delivers what the list holds there, or nothing. -/
theorem State.HoldsList.readEntry (h : s.HoldsList x es) {i : Nat} {e d : DefectEntry} (hi : es[i]? = some e)
    (hd : (s.readEntry x i).1 = some d) : d = e := by
  obtain ⟨hrow, hcol, h0, h1⟩ := h.2 i e hi
  have hc0 : checkWord 5 (s.wordAt (poolAddr x s.tableStore.leftShare i)) = .clean := by
    rw [State.wordAt, h0]; exact checkWord_encodeWord _
  have hc1 : checkWord 5 (s.wordAt (poolAddr x s.tableStore.leftShare i + 1)) = .clean := by
    rw [State.wordAt, h1]; exact checkWord_encodeWord _
  obtain ⟨hread0, hdata0⟩ := s.readTableWord_reread x (poolAddr x s.tableStore.leftShare i)
  obtain ⟨-, hdata1⟩ := (s.readTableWord x (poolAddr x s.tableStore.leftShare i)).2.readTableWord_reread x
    (poolAddr x s.tableStore.leftShare i + 1)
  rw [hread0.words _ hc1] at hdata1
  unfold State.readEntry at hd
  dsimp only at hd
  split at hd
  · next a b ha hb =>
    cases hd
    rw [hdata0 hc0 a ha, hdata1 hc1 b hb, State.wordAt, State.wordAt, h0, h1, dataOf_encodeWord, dataOf_encodeWord]
    exact entryOfWords_wordsOfEntry hrow hcol
  · cases hd

theorem State.readEntries_reread (x : Side) (is : List Nat) (s : State) : s.Rereads (State.readEntries x is s).2 := by
  induction is generalizing s with
  | nil => exact .refl s
  | cons i is ih =>
    have h := s.readEntry_reread x i
    unfold State.readEntries
    dsimp only
    split
    · exact h.trans (ih _)
    · exact (h.trans (State.loseEntry_reread _ x)).trans (ih _)

/-- The entries read are those of the list, without the lost ones. -/
theorem State.HoldsList.readEntries (h : s.HoldsList x es) (is : List Nat) (hi : ∀ i ∈ is, i < es.length) :
    (State.readEntries x is s).1.Sublist (is.filterMap (fun i => es[i]?)) := by
  induction is generalizing s with
  | nil => exact .slnil
  | cons i is ih =>
    obtain ⟨hlt, hrest⟩ := List.forall_mem_cons.mp hi
    have he : es[i]? = some es[i] := List.getElem?_eq_getElem hlt
    have hread := h.reread (s.readEntry_reread x i) (State.readEntry_frame s x i).share
    rw [List.filterMap_cons_some he]
    unfold State.readEntries
    dsimp only
    split
    · next d hd =>
      rw [h.readEntry he hd]
      exact (ih hread hrest).cons_cons _
    · exact (ih (hread.reread (State.loseEntry_reread _ x) (State.loseEntry_frame _ x).share) hrest).cons _

theorem filterMap_range_getElem? (es : List DefectEntry) : (List.range es.length).filterMap (fun i => es[i]?) = es := by
  induction es using List.reverseRecOn with
  | nil => rfl
  | append_singleton es e ih =>
    have hall : ∀ i ∈ List.range es.length, (es ++ [e])[i]? = es[i]? := fun i hi => List.getElem?_append_left (List.mem_range.mp hi)
    rw [List.length_append, List.length_singleton, List.range_succ, List.filterMap_append, List.filterMap_congr hall, ih]
    simp

/-! ## The write of a list (R155, R169) -/

/-- The list that is written stands in the pool, its sites being on the sensor. -/
theorem State.writeList_holdsList (s : State) (x : Side) (h : ListLawful new) : (s.writeList x new).HoldsList x new := by
  refine ⟨by rw [State.writeList, State.onSide_side], fun i e he => ?_⟩
  obtain ⟨⟨hrow, hcol⟩, -⟩ := h.entries e (List.mem_of_getElem? he)
  obtain ⟨h0, h1⟩ := s.writeList_holds x new i e he
  rw [Nat.mod_eq_of_lt (by omega)] at h1
  exact ⟨by omega, by omega, h0, h1⟩

theorem State.wordAt_writeList_out (s : State) (x : Side) (es : List DefectEntry) {a : Nat}
    (h : a < poolAddr x s.tableStore.leftShare 0 ∨ poolAddr x s.tableStore.leftShare 0 + 2 * es.length ≤ a) :
    (s.writeList x es).wordAt a = s.wordAt a :=
  s.wordAt_writeTableWords_out (by rwa [flatten_wordsOfEntry_length])

/-- A list within its share leaves the other side's list as it stands. -/
theorem State.HoldsList.writeList_other (h : s.HoldsList x.other es) (hes : es.length ≤ s.shareOf x.other)
    (hnew : new.length ≤ s.shareOf x) : (s.writeList x new).HoldsList x.other es := by
  refine ⟨by rw [State.writeList, State.onSide_side_other]; exact h.1, fun i e he => ?_⟩
  obtain ⟨hrow, hcol, h0, h1⟩ := h.2 i e he
  have hlt : i < es.length := (List.getElem?_eq_some_iff.mp he).1
  have hout : ∀ a, a = poolAddr x.other s.tableStore.leftShare i ∨ a = poolAddr x.other s.tableStore.leftShare i + 1 →
      (s.writeList x new).wordAt a = s.wordAt a := fun a ha => by
    refine s.wordAt_writeList_out x new ?_
    cases x <;> simp only [Side.other, poolAddr, State.shareOf] at ha hes hnew ⊢ <;> omega
  exact ⟨hrow, hcol, (hout _ (.inl rfl)).trans h0, (hout _ (.inr rfl)).trans h1⟩

theorem State.writeList_tables (s : State) (x : Side) (es : List DefectEntry) (h : s.TablesLawful) :
    (s.writeList x es).TablesLawful := by
  obtain ⟨hclean, hsides⟩ := (s.tablesLawful_iff).mp h
  refine (State.tablesLawful_iff _).mpr ⟨fun a ha => s.writeTableWords_clean _ _ (hclean a ha), fun y => ?_⟩
  have hbank : ∀ tb p, (s.writeList x es).bankWords y tb p = s.bankWords y tb p := fun tb p => State.bankWords_congr fun j hj => by
    have hlt := tableAddr_lt y tb p j hj
    have hge := poolAddr_ge x s.tableStore.leftShare 0
    exact s.wordAt_writeList_out x es (.inl (by omega))
  have hframe := State.writeList_frame s x es
  rcases Side.eq_or_eq_other x y with rfl | rfl
  · exact (hsides y).congr (by rw [hframe.dev]) hframe.active (by rw [hframe.commit]) (fun tb => hbank tb _) fun _ _ tb _ => hbank tb _
  · exact (hsides x.other).of_kept (by rw [hframe.other]) (fun tb => hbank tb _) fun _ _ tb _ => hbank tb _

/-! ## The whole list read (R57, R169) -/

/-- A side's list read whole: the entries not lost, with the edits, stand in the pool, and the other side's list as it stood. -/
theorem State.HoldsList.readList (h : s.HoldsList x es) (hes : ListLawful es) {given : List DefectEdit}
    (hgiven : ∀ d ∈ given, d.Lawful) : ∃ read, read.Sublist es ∧ (s.readList x given).1 = applyEdits read given ∧
      (s.readList x given).2.HoldsList x (applyEdits read given) ∧
      ((applyEdits read given).length ≤ s.shareOf x → ∀ es', es'.length ≤ s.shareOf x.other → s.HoldsList x.other es' →
        (s.readList x given).2.HoldsList x.other es') := by
  have hframe := State.readEntries_frame x (List.range (s.side x).tables.defectCount) s
  have hreread := State.readEntries_reread x (List.range (s.side x).tables.defectCount) s
  have hshare := State.shareOf_congr hframe.share
  have hsub := h.readEntries (List.range es.length) fun i hi => List.mem_range.mp hi
  rw [filterMap_range_getElem?, ← h.1] at hsub
  have hother : ∀ es', s.HoldsList x.other es' →
      (State.readEntries x (List.range (s.side x).tables.defectCount) s).2.HoldsList x.other es' :=
    fun es' hes' => hes'.reread hreread hframe.share
  refine ⟨_, hsub, ?_⟩
  unfold State.readList
  dsimp only
  split
  · exact ⟨rfl, State.writeList_holdsList _ x ((hes.sublist hsub).applyEdits hgiven), fun hlen es' hle hes' =>
      (hother es' hes').writeList_other (by rwa [hshare]) (by rwa [hshare])⟩
  · next hkept =>
    rw [not_or, not_lt, Decidable.not_not] at hkept
    obtain ⟨hlen, rfl⟩ := hkept
    have hall : (State.readEntries x (List.range (s.side x).tables.defectCount) s).1 = es :=
      hsub.eq_of_length_le (by rw [← h.1]; exact hlen)
    refine ⟨rfl, ?_, fun _ es' _ hes' => hother es' hes'⟩
    rw [hall]
    exact h.reread hreread hframe.share

/-- A side's list and edits that are lawful, with the other side's as they were, keep the laws of the pool. -/
theorem State.PoolLawful.rewrite (h : s.PoolLawful) (hl : t.tableStore.leftShare = s.tableStore.leftShare) (hx : t.HoldsList x new)
    (hn : ListWithin new (t.side x).dev.edits (s.shareOf x))
    (hy : ∀ es, es.length ≤ s.shareOf x.other → s.HoldsList x.other es → t.HoldsList x.other es)
    (he : (t.side x.other).dev.edits = (s.side x.other).dev.edits) : t.PoolLawful := by
  obtain ⟨hshare, hsides⟩ := (s.poolLawful_iff).mp h
  refine (State.poolLawful_iff _).mpr ⟨hl.symm ▸ hshare, fun y => ?_⟩
  rw [State.shareOf_congr hl]
  rcases Side.eq_or_eq_other x y with rfl | rfl
  · exact ⟨new, hx, hn⟩
  · obtain ⟨es, hholds, hwithin⟩ := hsides x.other
    exact ⟨es, hy es hwithin.held hholds, he.symm ▸ hwithin⟩

/-- A read of a whole list, with a change of the side's edits, keeps the laws of the pool when what it leaves is lawful. -/
theorem State.readList_pool (h : s.PoolLawful) {given : List DefectEdit} {g : SideState → SideState}
    (hgiven : ∀ d ∈ given, d ∈ (s.side x).dev.edits) (hc : ∀ d, (g d).tables.defectCount = d.tables.defectCount)
    (hw : ∀ read, ListWithin read (s.side x).dev.edits (s.shareOf x) → (s.readList x given).1 = applyEdits read given →
      ListWithin (applyEdits read given) (g ((s.readList x given).2.side x)).dev.edits (s.shareOf x)) :
    ((s.readList x given).2.onSide x g).PoolLawful := by
  obtain ⟨-, hsides⟩ := (s.poolLawful_iff).mp h
  obtain ⟨es, hholds, hwithin⟩ := hsides x
  obtain ⟨read, hsub, heq, hx, hy⟩ := hholds.readList hwithin.list fun d hd => hwithin.asked d (hgiven d hd)
  have hframe := State.readList_frame s x given
  have hnew := hw read (hwithin.sublist hsub) heq
  refine h.rewrite (x := x) (new := applyEdits read given) hframe.share ?_ (by rw [State.onSide_side]; exact hnew)
    (fun es' hle hes' => ?_) ?_
  · exact hx.congr (by rw [State.onSide_side, hc]) rfl fun _ _ _ => rfl
  · exact (hy hnew.held es' hle hes').congr (by rw [State.onSide_side_other]) rfl fun _ _ _ => rfl
  · rw [State.onSide_side_other, hframe.other]

theorem State.readList_tables (s : State) (x : Side) (given : List DefectEdit) (h : s.TablesLawful) :
    (s.readList x given).2.TablesLawful := by
  have hread := (State.StoreSound.ofReads (State.readEntries_frame x (List.range (s.side x).tables.defectCount) s)
    (State.readEntries_reread x _ s)).tables h
  unfold State.readList
  dsimp only
  split
  · exact State.writeList_tables _ x _ hread
  · exact hread

/-- A change of the pending edits that follows a read of the list is sound when what it leaves is lawful. -/
theorem State.readList_store {given : List DefectEdit} {v : Developer → List DefectEdit}
    (hgiven : ∀ d ∈ given, d ∈ (s.side x).dev.edits)
    (hw : ∀ read, ListWithin read (s.side x).dev.edits (s.shareOf x) → (s.readList x given).1 = applyEdits read given →
      ListWithin (applyEdits read given) (v (s.side x).dev) (s.shareOf x)) :
    s.StoreSound ((s.readList x given).2.onSide x (fun d => { d with dev := { d.dev with edits := v d.dev } })) where
  tables h := by
    have hread := s.readList_tables x given h
    refine (State.tablesLawful_iff _).mpr ⟨((State.tablesLawful_iff _).mp hread).1, fun y => ?_⟩
    have hy := ((State.tablesLawful_iff _).mp hread).2 y
    rcases Side.eq_or_eq_other x y with rfl | rfl
    · exact hy.congr (by rw [State.onSide_side]) (fun tb => by rw [State.onSide_side]) (by rw [State.onSide_side]) (fun _ => rfl)
        fun _ _ _ _ => rfl
    · exact hy.of_kept (by rw [State.onSide_side_other]) (fun _ => rfl) fun _ _ _ _ => rfl
  glare _ h y := by
    have hframe := State.readList_frame s x given
    rcases Side.eq_or_eq_other x y with rfl | rfl
    · rw [State.onSide_side, hframe.glare]
      exact h y
    · rw [State.onSide_side_other, hframe.other]
      exact h x.other
  pool _ h := State.readList_pool h hgiven (fun _ => rfl) fun read hr heq => by
    have hframe := State.readList_frame s x given
    dsimp only
    rw [hframe.dev]
    exact hw read hr heq

theorem State.applyPendingEdits_store (s : State) (x : Side) : s.StoreSound (s.applyPendingEdits x).2 := by
  rw [State.applyPendingEdits_eq]
  exact State.readList_store (v := fun _ => []) (fun _ hd => hd) fun read h _ => h.applied

/-! ## The directives on the pool (R166 to R170) -/

/-- An edit directive keeps the laws: its edits keep the projected list within the share (R167, R168). -/
theorem State.editSide_store {k : EditKind} {sites : List DefectEntry} (hcls : k = .add → ∀ e ∈ sites, e.cls ≠ 3) (x : Side)
    (s : State) : s.StoreSound (State.editSide k sites x s).2 := by
  have hclear := State.StoreSound.ofReads (State.clearDefectLoss_frame s x) (State.clearDefectLoss_reread s x)
  obtain ⟨t, ht⟩ : ∃ t, t = s.clearDefectLoss x := ⟨_, rfl⟩
  have hframe := State.readList_frame t x []
  unfold State.editSide
  dsimp only
  rw [← ht] at hclear ⊢
  refine hclear.trans (State.readList_store (v := fun d => d.edits ++ (k.judge ((t.readList x []).2.shareOf x) 0
    ((t.readList x []).2.side x).dev.edits.length (applyEdits (t.readList x []).1 ((t.readList x []).2.side x).dev.edits) sites).1)
    (fun d hd => by cases hd) fun read h heq => ?_)
  rw [heq, hframe.dev, State.shareOf_congr hframe.share]
  exact h.judged k 0 _ hcls

/-- The loss of one entry by DEFECT_ENTRY leaves a part of the list (R169, R170). -/
theorem State.dropEntry_store (s : State) (x : Side) (i : Nat) : s.StoreSound (s.dropEntry x i) where
  tables h := s.writeList_tables x _ h
  glare _ h y := by
    have hframe := State.dropEntry_frame s x i
    rcases Side.eq_or_eq_other x y with rfl | rfl
    · rw [hframe.glare]; exact h y
    · rw [hframe.other]; exact h x.other
  pool _ h := by
    obtain ⟨-, hsides⟩ := (s.poolLawful_iff).mp h
    obtain ⟨es, hholds, hwithin⟩ := hsides x
    have kept : ∀ j e, es[j]? = some e → s.keptEntry x j = e := fun j e he => by
      obtain ⟨hrow, hcol, h0, h1⟩ := hholds.2 j e he
      simp only [State.keptEntry, h0, h1, keptWord, checkWord_encodeWord, dataOf_encodeWord]
      exact entryOfWords_wordsOfEntry hrow hcol
    have hlist : ((List.range (s.side x).tables.defectCount).eraseIdx i).map (s.keptEntry x) = es.eraseIdx i := by
      have hall : (List.range es.length).map (s.keptEntry x) = es := List.ext_getElem (by simp) fun j h1 h2 => by
        rw [List.getElem_map, List.getElem_range]
        exact kept j _ (List.getElem?_eq_getElem h2)
      rw [hholds.1, ← List.eraseIdx_map, hall]
    have hframe := State.dropEntry_frame s x i
    have hnew := hwithin.sublist (List.eraseIdx_sublist es i)
    refine h.rewrite (x := x) (new := es.eraseIdx i) hframe.share ?_ (by rw [hframe.dev]; exact hnew) (fun es' hle hes' => ?_)
      (by rw [hframe.other])
    · rw [State.dropEntry, hlist]
      exact s.writeList_holdsList x hnew.list
    · rw [State.dropEntry, hlist]
      exact hes'.writeList_other hle hnew.held

/-- The shares of two empty lists may move (R166). -/
theorem State.leftShare_store {share : Nat} (hle : share ≤ 4096) (hempty : (s.sides.left.noDefects && s.sides.right.noDefects) = true) :
    s.StoreSound { s with tableStore := { s.tableStore with leftShare := share } } := by
  refine ⟨fun h => h, fun _ h => h, fun _ _ => (State.poolLawful_iff _).mpr ⟨hle, fun x => ?_⟩⟩
  have hside : (s.side x).tables.defectCount = 0 ∧ (s.side x).dev.edits = [] := by
    simp only [SideState.noDefects, Bool.and_eq_true, decide_eq_true_eq, List.isEmpty_iff] at hempty
    cases x
    · exact hempty.1
    · exact hempty.2
  refine ⟨[], ⟨hside.1, fun i e he => by cases he⟩, ⟨.nil, fun e he => by cases he⟩, fun d hd => ?_, Nat.zero_le _, ?_⟩
  · have hd : d ∈ (s.side x).dev.edits := hd
    rw [hside.2] at hd
    cases hd
  · have hnone : applyEdits [] (s.side x).dev.edits = [] := by rw [hside.2]; rfl
    exact (congrArg List.length hnone).trans_le (Nat.zero_le _)

end Sys2Proof.Machine
end

section
/-! The glare levels, the side restart and the power-on reset keep the laws (R79, R83, R86, R208, R209). -/

namespace Sys2Proof.Machine

variable {s t : State} {x : Side}

theorem GlareZone.update_within {z : GlareZone} (hz : z.level ≤ 15 ∧ z.hold ≤ 255) (lit : Bool) (attack release : Nat) {hold : Nat}
    (hh : hold ≤ 255) : (z.update lit attack release hold).level ≤ 15 ∧ (z.update lit attack release hold).hold ≤ 255 := by
  unfold GlareZone.update
  split
  · exact ⟨Nat.min_le_left _ _, hh⟩
  split <;> dsimp only <;> omega

theorem updateZones_within (attack release : Nat) {hold : Nat} (hh : hold ≤ 255) {zs : List GlareZone}
    (hz : ∀ z ∈ zs, z.level ≤ 15 ∧ z.hold ≤ 255) (bs : List Bool) :
    ∀ z ∈ updateZones attack release hold zs bs, z.level ≤ 15 ∧ z.hold ≤ 255 := by
  induction zs generalizing bs with
  | nil => exact fun z h => by cases h
  | cons z zs ih =>
    obtain ⟨hhead, hrest⟩ := List.forall_mem_cons.mp hz
    cases bs with
    | nil => exact hz
    | cons b bs => exact List.forall_mem_cons.mpr ⟨GlareZone.update_within hhead b attack release hh, ih hrest bs⟩

/-- The hold count of a profile in use is at most 255 (R43). -/
theorem State.TablesLawful.profile_hold (h : s.TablesLawful) (x : Side) (b : Bank) : (s.profileOf x b).hold ≤ 255 := by
  have hp := (((s.tablesLawful_iff).mp h).2 x).copies (TableId.profile b)
  have hkind : ∀ b : Bank, (TableId.profile b).kind = .profile := by decide
  rw [TableId.Passes, hkind] at hp
  exact hp (13, numAt ((s.copies x).get (TableId.profile b)) 13 ≤ 255) (by simp [TableKind.rules])

/-- A change of a side's glare levels that keeps their limits. -/
theorem State.StoreSound.onGlare {g : SideState → SideState}
    (hz : s.TablesLawful → (s.side x).glare.Lawful → (g (s.side x)).glare.Lawful)
    (hk : { (g (s.side x)).kept with zones := (s.side x).glare.zones } = (s.side x).kept) : s.StoreSound (s.onSide x g) where
  tables h := h.onSide ((((s.tablesLawful_iff).mp h).2 x).congr (by rw [State.onSide_side]; exact congrArg Kept.copies hk)
    (fun tb => by rw [State.onSide_side]; exact congrFun (congrArg Kept.active hk) tb)
    (by rw [State.onSide_side]; exact congrArg Kept.named hk) (fun _ => rfl) fun _ _ _ _ => rfl)
  glare ht h y := by
    rw [State.side_onSide]
    split
    · exact hz ht (h x)
    · exact h y
  pool _ h := h.onSide (congrArg Kept.edits hk) (congrArg Kept.count hk)

/-- The glare update of a good frame end keeps the limits of the levels and hold counts (R83). -/
theorem State.handFrame_store (s : State) (x : Side) (b : Bank) (f : FrameNo) :
    s.StoreSound (s.onSide x (fun d => d.handFrame (s.profileOf x b) f)) := by
  have hframe := SideState.onNewest_frame (s.side x) (fun r => { r with
    glare := some (litCountOf (s.profileOf x b) (s.side x).dev.zones, suspendedOf (s.profileOf x b) (s.side x).dev.zones) })
  refine .onGlare (fun ht hz => ?_) ?_
  · have hglare := congrArg SideState.glare hframe
    dsimp only at hglare
    unfold SideState.handFrame SideState.updateGlare Glare.Lawful
    dsimp only
    rw [hglare]
    exact updateZones_within _ _ (ht.profile_hold x b) hz _
  · have htables := congrArg SideState.tables (SideState.handFrame_frame (s.side x) (s.profileOf x b) f)
    dsimp only at htables
    simp only [SideState.kept, htables]
    rfl

theorem State.restarted_store (s : State) (x : Side) : s.StoreSound (s.onSide x SideState.restarted) := by
  refine .onGlare (fun _ _ => Glare.reset_lawful) ?_
  have hdev := (s.side x).restarted_dev
  have htables := (s.side x).restarted_keptTables
  simp only [SideState.kept, hdev, htables, Developer.idle]

/-- After power-on reset the table store holds the ROM defaults and empty lists (R154, R209). -/
theorem State.powerOn_store (s : State) : s.StoreSound s.powerOn where
  tables _ := State.reset_tablesLawful
  glare _ _ x := by
    rw [show s.powerOn.side x = SideState.reset from State.reset_side x]
    exact Glare.reset_lawful
  pool _ _ := State.reset_poolLawful

end Sys2Proof.Machine
end

section
/-! What every event keeps of the laws of slots, counts and exposure records, of the part's own ranges, and of the table store (R5, R7, R27,
R30, R48, R52, R99, R109 to R116, R123, R137, R138, R148, R153 to R169, R176): one relation that the blocks' operations keep to, closed
under composition. -/

namespace Sys2Proof.Machine

/-! ## The relation -/

/-- An exposure record has E = L(I) + a + d, with a in whole codes (R27). -/
def ExpRecord.Lawful (r : ExpRecord) : Prop := r.total = logLevel r.integ + r.analog + r.digital ∧ 32 ∣ r.analog

/-- The counts of a composer are within the limits at which they saturate (R137, R138, R148). -/
def Composer.Counted (c : Composer) : Prop :=
  c.repeatCount ≤ 255 ∧ c.startCount ≤ 600 ∧ c.silence ≤ 255 ∧ c.lagStrikes ≤ 2 ∧ c.goodChecks ≤ 2

/-- What the laws of slots, counts and records read of a side. -/
structure Judged where
  phase : RxPhase
  framesCounted : Nat × Nat
  mismatchCount : Nat
  trim : Int
  cleanCount : Nat
  composerCounts : Nat × Nat × Nat × Nat × Nat
  slots : Slots
  records : List ExpRecord

def SideState.judged (d : SideState) : Judged where
  phase := d.port.phase
  framesCounted := (d.port.badCount, d.port.goodCount)
  mismatchCount := d.exposure.mismatchCount
  trim := d.exposure.trim
  cleanCount := d.store.cleanCount
  composerCounts := (d.comp.repeatCount, d.comp.startCount, d.comp.silence, d.comp.lagStrikes, d.comp.goodChecks)
  slots := d.store.slots
  records := d.heldRecords

/-- A change of a side that keeps its laws. -/
structure SideState.Sound (d e : SideState) : Prop where
  slots : d.SlotsLawful → e.SlotsLawful
  counts : d.CountsLawful → e.CountsLawful
  records : d.RecordsLawful → e.RecordsLawful

/-- A change of the part that keeps the laws of both sides, its own ranges, and the laws of the table store. -/
structure State.Sound (s t : State) : Prop where
  side : ∀ x, (s.side x).Sound (t.side x)
  part : s.PartRangesLawful → t.PartRangesLawful
  store : s.StoreSound t

variable {s t u : State} {x : Side} {d e f : SideState}

theorem SideState.Sound.refl (d : SideState) : d.Sound d := ⟨id, id, id⟩

theorem SideState.Sound.trans (h : d.Sound e) (g : e.Sound f) : d.Sound f :=
  ⟨g.slots ∘ h.slots, g.counts ∘ h.counts, g.records ∘ h.records⟩

theorem State.Sound.refl (s : State) : s.Sound s := ⟨fun _ => .refl _, id, .refl s⟩

theorem State.Sound.trans (h : s.Sound t) (g : t.Sound u) : s.Sound u :=
  ⟨fun x => (h.side x).trans (g.side x), g.part ∘ h.part, h.store.trans g.store⟩

theorem SideState.slotsLawful_congr (h : e.judged = d.judged) : e.SlotsLawful ↔ d.SlotsLawful := by
  have hs : e.store.slots = d.store.slots := congrArg Judged.slots h
  have hp : e.port.phase = d.port.phase := congrArg Judged.phase h
  rw [SideState.SlotsLawful, SideState.SlotsLawful, hs, hp]

theorem SideState.countsLawful_congr (h : e.judged = d.judged) : e.CountsLawful ↔ d.CountsLawful := by
  have hf := congrArg Judged.framesCounted h
  have hm : e.exposure.mismatchCount = d.exposure.mismatchCount := congrArg Judged.mismatchCount h
  have ht : e.exposure.trim = d.exposure.trim := congrArg Judged.trim h
  have hc : e.store.cleanCount = d.store.cleanCount := congrArg Judged.cleanCount h
  have hv := congrArg Judged.composerCounts h
  simp only [SideState.judged, Prod.mk.injEq] at hf hv
  obtain ⟨hb, hg⟩ := hf
  obtain ⟨h1, h2, h3, h4, h5⟩ := hv
  rw [SideState.CountsLawful, SideState.CountsLawful, hb, hg, hm, ht, hc, h1, h2, h3, h4, h5]

/-- A change that leaves what the laws read keeps them. -/
theorem SideState.Sound.of_judged (h : e.judged = d.judged) : d.Sound e where
  slots := (SideState.slotsLawful_congr h).mpr
  counts := (SideState.countsLawful_congr h).mpr
  records hr r hm := by
    rw [show e.heldRecords = d.heldRecords from congrArg Judged.records h] at hm
    exact hr r hm

/-- The records that an exposure unit and its bus master hold are lawful (R27). -/
def Exposure.RecordsLawful (e : Exposure) : Prop :=
  (∀ r, e.inForce = some r → r.Lawful) ∧ (∀ q ∈ e.pendingQueue, q.record.Lawful) ∧ ∀ o ∈ e.outstanding, o.record.Lawful

/-- The records of a side's blocks, block by block. -/
theorem SideState.recordsLawful_iff (d : SideState) : d.RecordsLawful ↔
    d.exposure.RecordsLawful ∧ (∀ r ∈ d.history, r.exposure.Lawful) ∧ ∀ i, d.dev.inputs = some i → i.exposure.Lawful := by
  simp only [SideState.RecordsLawful, SideState.heldRecords, List.mem_append, List.mem_map, Option.mem_toList, Option.map_eq_some_iff,
    or_imp, forall_and, ← ExpRecord.Lawful.eq_def, forall_exists_index, and_imp, forall_apply_eq_imp_iff₂, and_assoc,
    Exposure.RecordsLawful]

/-! ## Elementary changes -/

/-- A change of one side as sound as what it does to that side and to the table store's laws. -/
theorem State.Sound.onSideStore {g : SideState → SideState} (h : (s.side x).Sound (g (s.side x))) (hk : s.StoreSound (s.onSide x g)) :
    s.Sound (s.onSide x g) where
  side y := by
    rw [State.side_onSide]
    split
    · next e => exact e ▸ h
    · exact .refl _
  part := id
  store := hk

/-- A change of one side is as sound as what it does to that side, when it leaves what the table store's laws read. -/
theorem State.Sound.onSide {g : SideState → SideState} (h : (s.side x).Sound (g (s.side x)))
    (hk : (g (s.side x)).kept = (s.side x).kept := by rfl) : s.Sound (s.onSide x g) := .onSideStore h (.onSide hk)

/-- A change of one side that leaves all that the laws read. -/
theorem State.Sound.onSide_same {g : SideState → SideState} (h : (g (s.side x)).judged = (s.side x).judged)
    (hk : (g (s.side x)).kept = (s.side x).kept := by rfl) : s.Sound (s.onSide x g) := .onSide (.of_judged h) hk

/-- A change of a composer is sound when its counts stay within their limits. -/
theorem State.Sound.onComp {g : Composer → Composer} (h : (s.side x).comp.Counted → (g (s.side x).comp).Counted) :
    s.Sound (s.onComp x g) :=
  .onSide ⟨id, fun ⟨hb, hg, hm, ht, hs, hc⟩ => ⟨hb, hg, hm, ht, hs, h hc⟩, id⟩

/-- A change of anything but the sides, the articulation record, the table store and the fault table is sound. -/
theorem State.Sound.of_eq (hs : t.sides = s.sides) (ha : t.artic = s.artic) (ht : t.tableStore.leftShare = s.tableStore.leftShare)
    (hf : t.faults = s.faults) (hm : t.tableStore.mem = s.tableStore.mem := by rfl) : s.Sound t where
  side y := by rw [State.side, State.side, hs]; exact .refl _
  part h := by rw [State.PartRangesLawful, ha, ht, hf]; exact h
  store := .of_sides hm ht hs

theorem State.Sound.onLink {l : Side} (g : Link → Link) : s.Sound (s.onLink l g) := .of_eq rfl rfl rfl rfl

theorem satSucc_le (n cap : Nat) : satSucc n cap ≤ cap := Nat.min_le_right _ _

theorem FaultRecord.setAt_count {r : FaultRecord} (h : r.count ≤ 255) (now : Tick) (d : Word) : (r.setAt now d).count ≤ 255 := by
  unfold FaultRecord.setAt
  split
  · exact satSucc_le _ _
  · exact h
  · exact h

@[simp] theorem FaultRecord.endedAt_count (r : FaultRecord) (now : Tick) : (r.endedAt now).count = r.count := by
  unfold FaultRecord.endedAt; split <;> rfl

/-- The counts of a fault table within their limit (R176). -/
def FaultTable.Counted (f : FaultTable) : Prop := ∀ i, (f.get i).count ≤ 255

theorem FaultTable.Counted.set {f : FaultTable} (h : f.Counted) (i : RecordId) {r : FaultRecord} (hr : r.count ≤ 255) :
    (f.set i r).Counted := by
  intro j
  rw [FaultTable.get_set]
  split
  · exact hr
  · exact h j

theorem State.raise_counted (h : s.faults.Counted) (i : RecordId) (d : Word) : (s.raise i d).faults.Counted := by
  rw [State.raise_faults]
  exact h.set i (FaultRecord.setAt_count (h i) _ _)

theorem State.endFault_counted (h : s.faults.Counted) (i : RecordId) : (s.endFault i).faults.Counted := by
  rw [State.endFault_faults]
  exact h.set i ((FaultRecord.endedAt_count _ _).le.trans (h i))

/-- A change that leaves the sides, the articulation record and the LEFT share is as sound as what it does to the counts of the fault
table. -/
theorem State.Sound.onFaults (hs : t.sides = s.sides) (ha : t.artic = s.artic) (ht : t.tableStore = s.tableStore)
    (hf : s.faults.Counted → t.faults.Counted) : s.Sound t where
  side y := by rw [State.side, State.side, hs]; exact .refl _
  part h := by
    obtain ⟨hangle, hshare, hcount⟩ := h
    rw [State.PartRangesLawful, ha, ht]
    exact ⟨hangle, hshare, hf hcount⟩
  store := .of_sides (by rw [ht]) (by rw [ht]) hs

theorem State.Sound.raise (i : RecordId) (d : Word) : s.Sound (s.raise i d) :=
  .onFaults (by simp) (by simp) (by simp) (fun h => State.raise_counted h i d)

theorem State.Sound.endFault (i : RecordId) : s.Sound (s.endFault i) :=
  .onFaults (by simp) (by simp) (by simp) (fun h => State.endFault_counted h i)

/-- A sound change followed by a report is sound. -/
theorem State.Sound.thenRaise (h : s.Sound t) (i : RecordId) (d : Word) : s.Sound (t.raise i d) := h.trans (.raise i d)

theorem State.Sound.thenEnd (h : s.Sound t) (i : RecordId) : s.Sound (t.endFault i) := h.trans (.endFault i)

/-- A sound change followed by a change of one side that leaves what the laws read is sound. -/
theorem State.Sound.thenOnSide {g : SideState → SideState} (h : s.Sound t) (hg : (g (t.side x)).judged = (t.side x).judged)
    (hk : (g (t.side x)).kept = (t.side x).kept := by rfl) : s.Sound (t.onSide x g) := h.trans (.onSide_same hg hk)

/-- A change of a side that leaves what its other laws read, sound for the table store's laws as a whole. -/
theorem State.Sound.thenOnSideStore {g : SideState → SideState} (h : s.Sound t) (hg : (g (t.side x)).judged = (t.side x).judged)
    (hk : s.StoreSound (t.onSide x g)) : s.Sound (t.onSide x g) where
  side y := by
    refine (h.side y).trans (.of_judged ?_)
    rw [State.side_onSide]
    split
    · next hy => rw [hy, hg]
    · rfl
  part := h.part
  store := hk

theorem State.Sound.ite {c : Prop} [Decidable c] (ht : s.Sound t) (hu : s.Sound u) : s.Sound (if c then t else u) := by
  split
  · exact ht
  · exact hu

/-- A step made on each of a list of sides is sound when each is. -/
theorem State.Sound.forSides {g : State → Side → State} (h : ∀ (s : State) (x : Side), s.Sound (g s x)) (xs : List Side) (s : State) :
    s.Sound (s.forSides xs g) := by
  induction xs generalizing s with
  | nil => exact .refl s
  | cons x xs ih => exact (h s x).trans (ih _)

/-- A run of sound changes is sound. -/
theorem State.Sound.foldl {α : Type} {g : State → α → State} (as : List α) (h : ∀ (s : State) (a : α), s.Sound (g s a)) (s : State) :
    s.Sound (as.foldl g s) := by
  induction as generalizing s with
  | nil => exact .refl s
  | cons a as ih => exact (h s a).trans (ih _)

theorem State.TableSteps.counted (h : s.TableSteps x t) (hf : s.faults.Counted) : t.faults.Counted := by
  induction h with
  | refl => exact hf
  | store ts _ ih => exact ih
  | corr b _ ih => exact ih
  | tables g _ ih => exact ih
  | raise d hi _ ih => exact State.raise_counted ih _ _
  | endFault _ ih => exact State.endFault_counted ih _

/-- The table store's operations for a side touch nothing that the laws of the sides read. -/
theorem State.TableFrame.side_judged (h : s.TableFrame t x) (y : Side) : (t.side y).judged = (s.side y).judged := by
  rcases Side.eq_or_eq_other x y with rfl | rfl
  · have hj := congrArg SideState.judged h.side
    exact hj
  · rw [h.other]

/-- A run of the table store's operations for a side, with a change of the side that leaves what the other laws read, is sound when it
keeps the table store's laws. -/
theorem State.Sound.ofTablesThen (hf : s.TableFrame t x) (hs : s.TableSteps x t) {g : SideState → SideState}
    (hg : (g (t.side x)).judged = (t.side x).judged) (hk : s.StoreSound (t.onSide x g)) : s.Sound (t.onSide x g) where
  side y := by
    refine .of_judged ?_
    rw [← hf.side_judged y, State.side_onSide]
    split
    · next hy => rw [hy, hg]
    · rfl
  part h := by
    obtain ⟨hangle, hshare, hcount⟩ := h
    rw [State.PartRangesLawful, State.onSide_artic, State.onSide_tableStore, hf.artic, hf.share]
    exact ⟨hangle, hshare, hs.counted hcount⟩
  store := hk

theorem State.Sound.ofTables (hf : s.TableFrame t x) (hs : s.TableSteps x t) (hk : s.StoreSound t) : s.Sound t := by
  have h := State.Sound.ofTablesThen hf hs (g := id) rfl (by rwa [State.onSide_of_eq rfl])
  rwa [State.onSide_of_eq rfl] at h

/-- A run of the table store's reads is sound. -/
theorem State.Sound.ofReads (hf : s.TableFrame t x) (hs : s.TableSteps x t) (hr : s.Rereads t) : s.Sound t :=
  .ofTables hf hs (.ofReads hf hr)

end Sys2Proof.Machine
end

section
/-! The slots and the frame in flight keep the laws (R5, R52, R61, R109 to R116). -/

namespace Sys2Proof.Machine

variable {s t u : State} {x : Side} {d e : SideState}

/-! ## The slots (R109) -/

/-- Slots that are freed or stand as they were keep their laws, while FILLING stands in LINES alone. -/
theorem SideState.SlotsLawful.of_slots (h : d.SlotsLawful)
    (hs : ∀ n, ((e.store.slots.get n).state = .free ∧ (e.store.slots.get n).content = none) ∨
      ((e.store.slots.get n).state = (d.store.slots.get n).state ∧ (e.store.slots.get n).content = (d.store.slots.get n).content))
    (hp : ∀ n, (e.store.slots.get n).state = .filling → e.port.phase = .lines) : e.SlotsLawful := by
  obtain ⟨huniq, hcontent, -⟩ := h
  refine ⟨fun n m hnm => ?_, fun n => ?_, hp⟩
  · rcases hs n with ⟨hn, -⟩ | ⟨hn, -⟩
    · exact .inr hn
    rcases hs m with ⟨hm, -⟩ | ⟨hm, -⟩
    · exact .inr (hnm.trans hm)
    · rw [hn]; exact huniq n m (by rw [← hn, ← hm]; exact hnm)
  · rcases hs n with ⟨hn, hc⟩ | ⟨hn, hc⟩
    · simp [hn, hc]
    · rw [hn, hc]; exact hcontent n

theorem SideState.SlotsLawful.freeSlot (h : d.SlotsLawful) (n : SlotNo) (o : FrameOutcome) : (d.freeSlot n o).SlotsLawful := by
  refine h.of_slots (fun m => ?_) (fun m hm => ?_)
  · rw [SideState.freeSlot_slot]
    split
    · exact .inl ⟨rfl, rfl⟩
    · exact .inr ⟨rfl, rfl⟩
  · rw [SideState.freeSlot_slot] at hm
    split at hm
    · cases hm
    · exact h.2.2 m hm

/-- A slot that is not FREE may take a state that no other slot has. -/
theorem SideState.SlotsLawful.setSlotState (h : d.SlotsLawful) {n : SlotNo} {st : SlotState} (hn : (d.store.slots.get n).state ≠ .free)
    (hfree : st ≠ .free) (hfill : st ≠ .filling) (honly : ∀ m, (d.store.slots.get m).state ≠ st) :
    (d.setSlotState n st).SlotsLawful := by
  obtain ⟨huniq, hcontent, hphase⟩ := h
  have get : ∀ m, (d.setSlotState n st).store.slots.get m =
      if m = n then { d.store.slots.get n with state := st } else d.store.slots.get m := fun m => SideState.setSlotState_slot d n m st
  refine ⟨fun m k hmk => ?_, fun m => ?_, fun m hm => ?_⟩
  · rw [get m, get k] at hmk
    rw [get m]
    by_cases hm : m = n <;> by_cases hk : k = n
    · exact .inl (hm.trans hk.symm)
    · rw [if_pos hm, if_neg hk] at hmk; exact absurd hmk.symm (honly k)
    · rw [if_neg hm, if_pos hk] at hmk; exact absurd hmk (honly m)
    · rw [if_neg hm, if_neg hk] at hmk; rw [if_neg hm]; exact huniq m k hmk
  · rw [get m]
    split
    · have hc : (d.store.slots.get n).content ≠ none := fun hc => hn ((hcontent n).mp hc)
      simp [hfree, hc]
    · exact hcontent m
  · rw [get m] at hm
    split at hm
    · exact absurd hm hfill
    · exact hphase m hm

/-- Of a state but FREE there is at most one slot. -/
theorem SideState.SlotsLawful.unique (h : d.SlotsLawful) {n m : SlotNo} {st : SlotState} (hn : (d.store.slots.get n).state = st)
    (hm : (d.store.slots.get m).state = st) (hst : st ≠ .free) : m = n :=
  (h.1 m n (hm.trans hn.symm)).resolve_right (hm ▸ hst)

/-- A freed slot is the only one of its state. -/
theorem SideState.SlotsLawful.none_left (h : d.SlotsLawful) {n : SlotNo} {st : SlotState} (hn : (d.store.slots.get n).state = st)
    (hst : st ≠ .free) {p : Slots} (hp : ∀ m, p.get m = if m = n then (d.store.slots.get n).freed else d.store.slots.get m) (m : SlotNo) :
    (p.get m).state ≠ st := by
  rw [hp]
  split
  · exact fun hf => hst hf.symm
  · next hm => exact fun hf => hm (h.unique hn hf hst)

/-! ## The frame records of the slots (R115) -/

/-- An outcome written into a record leaves its exposure. -/
theorem exposure_of_mem_writeOutcome {h : List FrameRecord} {k : Nat} {o : FrameOutcome} {r : FrameRecord} (hr : r ∈ writeOutcome h k o) :
    ∃ q ∈ h, q.exposure = r.exposure := by
  obtain ⟨q, hq, rfl⟩ := List.mem_map.mp hr
  refine ⟨q, hq, ?_⟩
  split <;> rfl

/-- A history whose exposures are those of the old one, with the other blocks' records as they were, keeps E = L(I) + a + d. -/
theorem SideState.RecordsLawful.of_history {h : List FrameRecord} (hd : d.RecordsLawful)
    (hh : ∀ r ∈ h, ∃ q ∈ d.history, q.exposure = r.exposure) : SideState.RecordsLawful { d with history := h } := by
  rw [SideState.recordsLawful_iff] at hd ⊢
  obtain ⟨hexp, hhist, hinp⟩ := hd
  refine ⟨hexp, fun r hr => ?_, hinp⟩
  obtain ⟨q, hq, he⟩ := hh r hr
  exact he ▸ hhist q hq

theorem SideState.RecordsLawful.writeOutcome (hd : d.RecordsLawful) (k : Nat) (o : FrameOutcome) :
    SideState.RecordsLawful { d with history := writeOutcome d.history k o } :=
  hd.of_history fun _ hr => exposure_of_mem_writeOutcome hr

/-! ## Operations on the slots (R110 to R113, R116) -/

theorem SideState.freeSlot_sound (d : SideState) (n : SlotNo) (o : FrameOutcome) : d.Sound (d.freeSlot n o) where
  slots h := h.freeSlot n o
  counts := id
  records h := by
    unfold SideState.freeSlot
    dsimp only
    split
    · exact h.writeOutcome _ _
    · exact h

theorem SideState.discardSlot_sound (d : SideState) : d.Sound d.discardSlot := by
  unfold SideState.discardSlot
  split
  · exact .refl d
  · exact SideState.freeSlot_sound d _ _

/-- A side whose FILLING slot is freed has none, whatever the phase of its port. -/
theorem SideState.DiscardsFilling.slotsLawful (h : d.DiscardsFilling e) (hd : d.SlotsLawful) : e.SlotsLawful := by
  obtain ⟨hget, -, -⟩ := h
  refine hd.of_slots (fun n => ?_) (fun n hn => ?_)
  · rw [hget]
    split
    · exact .inl ⟨rfl, rfl⟩
    · exact .inr ⟨rfl, rfl⟩
  · rw [hget] at hn
    split at hn
    · cases hn
    · next hne => exact absurd hn hne

/-- The developer's return to IDLE drops the exposure record of the frame in flight. -/
theorem SideState.RecordsLawful.idle (h : d.RecordsLawful) : SideState.RecordsLawful { d with dev := d.dev.idle } := by
  rw [SideState.recordsLawful_iff] at h ⊢
  obtain ⟨hexp, hhist, -⟩ := h
  exact ⟨hexp, hhist, fun i hi => by cases hi⟩

theorem SideState.discardFrame_sound (d : SideState) : d.Sound d.discardFrame :=
  (SideState.discardSlot_sound d).trans ⟨id, id, fun h => h.idle⟩

/-- After a frame has become READY none is FILLING (R111). -/
theorem SideState.readySlot_not_filling (h : d.SlotsLawful) (m : SlotNo) : (d.readySlot.store.slots.get m).state ≠ .filling := by
  unfold SideState.readySlot
  split
  · next hf => exact Slots.find_none hf m
  · next n hf =>
    have hn := Slots.find_some hf
    dsimp only
    rw [SideState.setSlotState_slot]
    split
    · exact fun hr => by cases hr
    · next hm =>
      split
      · rw [SideState.freeSlot_slot]
        split
        · exact fun hr => by cases hr
        · exact fun hr => hm (h.unique hn hr (by decide))
      · exact fun hr => hm (h.unique hn hr (by decide))

theorem SideState.readySlot_sound (d : SideState) : d.Sound d.readySlot := by
  unfold SideState.readySlot
  split
  · exact .refl d
  · next n hf =>
    have hn := Slots.find_some hf
    split
    · next m hr =>
      have hm := Slots.find_some hr
      have hne : n ≠ m := fun he => by rw [he, hm] at hn; cases hn
      have hfilling : ((d.freeSlot m .skipped).store.slots.get n).state = .filling := by
        rw [SideState.freeSlot_slot, if_neg hne]; exact hn
      exact
        { slots := fun h => (h.freeSlot m .skipped).setSlotState (by rw [hfilling]; decide) (by decide) (by decide)
            (h.none_left hm (by decide) (fun k => SideState.freeSlot_slot d m k .skipped))
          counts := id
          records := (SideState.freeSlot_sound d m .skipped).records }
    · next hr => exact ⟨fun h => h.setSlotState (by rw [hn]; decide) (by decide) (by decide) (Slots.find_none hr), id, id⟩

/-- The SHOWING slot is freed without an outcome (R113). -/
def SideState.freeShowing (d : SideState) (m : SlotNo) : SideState :=
  { d with store := { d.store with slots := d.store.slots.set m (d.store.slots.get m).freed } }

theorem SideState.freeShowing_slot (d : SideState) (m n : SlotNo) :
    (d.freeShowing m).store.slots.get n = if n = m then (d.store.slots.get m).freed else d.store.slots.get n :=
  Slots.get_set _ _ _ _

theorem SideState.SlotsLawful.freeShowing (h : d.SlotsLawful) (m : SlotNo) : (d.freeShowing m).SlotsLawful := by
  refine h.of_slots (fun n => ?_) (fun n hn => ?_)
  · rw [SideState.freeShowing_slot]
    split
    · exact .inl ⟨rfl, rfl⟩
    · exact .inr ⟨rfl, rfl⟩
  · rw [SideState.freeShowing_slot] at hn
    split at hn
    · cases hn
    · exact h.2.2 n hn

theorem SideState.resolveSlots_sound (d : SideState) (mode : OutputMode) (now : Tick) (limit : Nat) :
    d.Sound (d.resolveSlots mode now limit).2 := by
  unfold SideState.resolveSlots
  split
  · exact .refl d
  · next n hr =>
    have hn := Slots.find_some hr
    split
    · exact .refl d
    split
    · exact SideState.freeSlot_sound d n _
    split
    · exact SideState.freeSlot_sound d n _
    · dsimp only
      split
      · next m hs =>
        have hm := Slots.find_some hs
        have hne : n ≠ m := fun he => by rw [he, hm] at hn; cases hn
        have hready : ((d.freeShowing m).store.slots.get n).state = .ready := by
          rw [SideState.freeShowing_slot, if_neg hne]; exact hn
        exact
          { slots := fun h => (h.freeShowing m).setSlotState (by rw [hready]; decide) (by decide) (by decide)
              (h.none_left hm (by decide) (SideState.freeShowing_slot d m))
            counts := id
            records := fun h => h.writeOutcome _ _ }
      · next hs =>
        exact
          { slots := fun h => h.setSlotState (by rw [hn]; decide) (by decide) (by decide) (Slots.find_none hs)
            counts := id
            records := fun h => h.writeOutcome _ _ }

/-- A side whose port opens its lines fills a slot where none is FILLING (R110). -/
theorem SideState.SlotsLawful.fillSlot (h : d.SlotsLawful) (hp : d.port.phase = .lines) (hf : ∀ n, (d.store.slots.get n).state ≠ .filling)
    (g : Geometry) (f : FrameNo) (arrival : Tick) (serial : Nat) : (d.fillSlot g f arrival serial).2.SlotsLawful := by
  obtain ⟨-, hget⟩ := SideState.fillSlot_spec d g f arrival serial
  have hphase : (d.fillSlot g f arrival serial).2.port.phase = .lines := by unfold SideState.fillSlot; split <;> exact hp
  obtain ⟨huniq, hcontent, -⟩ := h
  refine ⟨fun n m hnm => ?_, fun n => ?_, fun _ _ => hphase⟩
  · rw [hget, hget] at hnm
    rw [hget]
    by_cases hn : d.store.slots.find .free = some n <;> by_cases hm : d.store.slots.find .free = some m
    · exact .inl (Option.some.inj (hn.symm.trans hm))
    · rw [if_pos hn, if_neg hm] at hnm; exact absurd hnm.symm (hf m)
    · rw [if_neg hn, if_pos hm] at hnm; exact absurd hnm (hf n)
    · rw [if_neg hn, if_neg hm] at hnm; rw [if_neg hn]; exact huniq n m hnm
  · rw [hget]
    split
    · simp
    · exact hcontent n

/-! ## The newest frame record -/

theorem SideState.onNewest_sound (d : SideState) {f : FrameRecord → FrameRecord}
    (hf : ∀ r, r.exposure.Lawful → (f r).exposure.Lawful) : d.Sound (d.onNewest f) where
  slots := by unfold SideState.onNewest; split <;> exact id
  counts := by unfold SideState.onNewest; split <;> exact id
  records h := by
    unfold SideState.onNewest
    split
    · exact h
    · next r rs hr =>
      rw [SideState.recordsLawful_iff] at h ⊢
      obtain ⟨hexp, hhist, hinp⟩ := h
      rw [hr] at hhist
      refine ⟨hexp, fun q hq => ?_, hinp⟩
      rcases List.mem_cons.mp hq with rfl | hq
      · exact hf r (hhist r List.mem_cons_self)
      · exact hhist q (List.mem_cons_of_mem _ hq)

/-- A change of the newest record that leaves its exposure is sound. -/
theorem SideState.onNewest_sound_of_exposure (d : SideState) {f : FrameRecord → FrameRecord} (hf : ∀ r, (f r).exposure = r.exposure) :
    d.Sound (d.onNewest f) := d.onNewest_sound fun r hr => by rw [hf]; exact hr

end Sys2Proof.Machine
end

section
/-! The sensor's events keep the laws: the sensor bus, the exposure unit, the frame start, the frame end and the loss of the port. -/

namespace Sys2Proof.Machine

variable {s t u : State} {x : Side} {d e : SideState}

/-! ## Commits and condition flags -/

theorem State.Sound.swapSet (h : s.Sound t) (x : Side) (c : PendingCommit) (hc : s.TablesLawful → t.ShadowsPass x c.tables) :
    s.Sound (t.swapSet x c) := by
  have hexchange : s.Sound (t.exchange x c) :=
    h.thenOnSideStore rfl (.of_lawful fun hs => h.store.trans (State.exchange_store t x c fun _ => hc hs))
  have hfill : (t.exchange x c).Sound ((t.exchange x c).fillCommit x c) := by
    unfold State.fillCommit
    split
    · exact .onLink _
    · exact .refl _
  exact (hexchange.trans hfill).trans
    (.ofReads (State.endPoisonIfHealed_frame _ x) (State.endPoisonIfHealed_steps _ x) (State.endPoisonIfHealed_reread _ x))

theorem State.swapPending_sound (s : State) (x : Side) : s.Sound (s.swapPending x) := by
  unfold State.swapPending
  split
  · next c hc => exact (State.Sound.refl s).swapSet x c fun h => (((s.tablesLawful_iff).mp h).2 x).named c hc
  · exact .refl s

theorem State.checkHot_sound (s : State) (x : Side) (T : Int) : s.Sound (s.checkHot x T) := by
  unfold State.checkHot
  dsimp only
  split
  · exact .thenRaise (.onSide_same (by rfl)) _ _
  split
  · exact .thenEnd (.onSide_same (by rfl)) _
  · exact .refl s

theorem State.reportMatch_sound (s : State) (x : Side) (f : FrameNo) (m : MatchResult) : s.Sound (s.reportMatch x f m) := by
  cases m with
  | seeded => exact .refl s
  | matched =>
    simp only [State.reportMatch]
    split
    · exact .thenEnd (.onSide_same (by rfl)) _
    · exact .refl s
  | mismatched =>
    simp only [State.reportMatch]
    split
    · exact .thenRaise (.onSide_same (by rfl)) _ _
    · exact .refl s

theorem State.endSensorFaults_sound (s : State) (x : Side) : s.Sound (s.endSensorFaults x) := by
  rw [State.endSensorFaults_eq]
  refine .trans (t := s.endSensorLoss x) ?_ ?_
  · exact .ite (.thenEnd (.onSide_same (by rfl)) _) (.refl s)
  · exact .ite (.thenEnd (.onSide_same (by rfl)) _) (.refl _)

theorem State.endSensorBus_sound (s : State) (x : Side) : s.Sound (s.endSensorBus x) :=
  .ite (.thenEnd (.onSide_same (by rfl)) _) (.refl s)

/-! ## Malformed frames (R5, R10, R61, R112) -/

/-- Outside LINES no slot is FILLING (R52). -/
theorem SideState.SlotsLawful.not_filling (h : d.SlotsLawful) (hp : d.port.phase ≠ .lines) (n : SlotNo) :
    (d.store.slots.get n).state ≠ .filling := fun hn => hp (h.2.2 n hn)

/-- A port that leaves LINES, or opens a frame, while no slot is FILLING. -/
theorem SideState.SlotsLawful.onPort (h : d.SlotsLawful) (hp : d.port.phase ≠ .lines) (p : Port) :
    SideState.SlotsLawful { d with port := p } :=
  h.of_slots (fun _ => .inr ⟨rfl, rfl⟩) (fun n hn => absurd hn (h.not_filling hp n))

/-- A change of the port with its two counts in their range. -/
theorem SideState.CountsLawful.onPort (h : d.CountsLawful) {p : Port} (hb : p.badCount ≤ 255) (hg : p.goodCount ≤ 255) :
    SideState.CountsLawful { d with port := p } := ⟨hb, hg, h.2.2⟩

theorem SideState.closeMalformed_sound (d : SideState) (index : Nat) (started : Bool) (h : started = false → d.port.phase ≠ .lines) :
    d.Sound (d.closeMalformed index started) := by
  have counts : d.CountsLawful → (d.closeMalformed index false).CountsLawful :=
    fun hc => hc.onPort (satSucc_le _ _) (Nat.zero_le _)
  cases started with
  | false => exact ⟨fun hs => hs.onPort (h rfl) _, counts, id⟩
  | true =>
    have discard := SideState.discardFrame_sound (d.closeMalformed index false)
    exact ⟨fun hs => (SideState.closeMalformed_discards d index hs).slotsLawful hs, discard.counts ∘ counts, discard.records⟩

/-- A discard leaves what the table store's laws read. -/
theorem SideState.discardFrame_kept (d : SideState) : d.discardFrame.kept = d.kept := by
  unfold SideState.discardFrame SideState.discardSlot
  split <;> rfl

theorem SideState.closeMalformed_kept (d : SideState) (index : Nat) (started : Bool) : (d.closeMalformed index started).kept = d.kept := by
  cases started with
  | false => rfl
  | true => exact SideState.discardFrame_kept (d.closeMalformed index false)

theorem State.malformed_sound (s : State) (x : Side) (index : Nat) (started : Bool)
    (h : started = false → (s.side x).port.phase ≠ .lines) : s.Sound (s.malformed x index started) := by
  have close : s.Sound (s.onSide x (fun d => d.closeMalformed index started))  :=
    .onSide (SideState.closeMalformed_sound _ _ _ h) (SideState.closeMalformed_kept _ _ _)
  rw [State.malformed_eq]
  exact .ite (.thenRaise (close.thenOnSide (by rfl)) _ _) close

theorem State.frameBegin_sound (s : State) (x : Side) : s.Sound (s.frameBegin x) := by
  have opens : ∀ s : State, (s.side x).port.phase ≠ .lines → s.Sound (s.onSide x SideState.openStatus) := fun s hp =>
    .onSide ⟨fun hs => hs.onPort hp _, fun hc => hc.onPort hc.1 hc.2.1, id⟩
  have closed : ∀ index started, ((s.malformed x index started).side x).port.phase ≠ .lines := fun index started => by
    rw [State.malformed_port]; exact fun h => by cases h
  rw [State.frameBegin_eq]
  split
  · next hp => exact opens s (by rw [hp]; decide)
  · next hp => exact (State.malformed_sound s x _ _ fun _ => by rw [hp]; decide).trans (opens _ (closed _ _))
  · exact (State.malformed_sound s x _ _ fun h => by cases h).trans (opens _ (closed _ _))

/-! ## The developer (R59, R65, R76) -/

theorem State.writeRows_sound (x : Side) (n : SlotNo) (rs : List (Nat × List Pixel)) (s : State) :
    s.Sound (State.writeRows x n rs s) := by
  induction rs generalizing s with
  | nil => exact .refl s
  | cons r rs ih => exact .trans (t := s.writeFrameWords x _ _) (.of_eq rfl rfl rfl rfl) (ih _)

theorem State.developCellRow_sound (x : Side) (inp : FrameInputs) (cells : List Cell) (cy : Nat) (s : State) :
    s.Sound (State.developCellRow x inp cells cy s) := by
  unfold State.developCellRow
  dsimp only
  split
  · exact .onSide_same rfl
  · exact (State.Sound.onSide_same (by rfl)).trans (State.writeRows_sound _ _ _ _)

theorem State.developLine_sound (s : State) (x : Side) (n : Nat) (raw : List Sample) : s.Sound (s.developLine x n raw) := by
  unfold State.developLine
  dsimp only
  split
  · exact (State.Sound.onSide_same (by rfl)).trans (.foldl _ (fun s cy => State.developCellRow_sound x _ _ cy s) _)
  · exact .refl s

end Sys2Proof.Machine
end

section
/-! The exposure records that are made and passed on keep E = L(I) + a + d, with a in whole codes (R27, R29 to R31, R38 to R42). -/

namespace Sys2Proof.Machine

variable {s t u : State} {x : Side} {d e : SideState} {r : ExpRecord}

/-! ## New records (R30, R31, R38) -/

theorem ExpRecord.Lawful.zero : ({ total := 0, integ := 0, analog := 0, digital := 0 } : ExpRecord).Lawful := by
  refine ⟨?_, dvd_zero _⟩
  decide

theorem ExpRecord.Lawful.getD {o : Option ExpRecord} (ho : ∀ q, o = some q → q.Lawful) (hr : r.Lawful) : (o.getD r).Lawful := by
  cases o with
  | none => exact hr
  | some q => exact ho q rfl

/-- A limit on the analog gain is a whole number of codes (R28). -/
theorem limitsOf_aMax (p : Profile) (n : Sensor) : 32 ∣ (limitsOf p n).aMax := ⟨n.gainMax, Nat.mul_comm _ _⟩

theorem dvd_min_of_dvd {a b : Nat} (ha : 32 ∣ a) (hb : 32 ∣ b) : 32 ∣ min a b := by
  rcases Nat.le_total a b with h | h
  · rwa [Nat.min_eq_left h]
  · rwa [Nat.min_eq_right h]

theorem seededRecord_lawful (l : Limits) (i : Nat) {a : Nat} (ha : 32 ∣ a) : (seededRecord l i a).Lawful := ⟨rfl, ha⟩

theorem rebuiltRecord_lawful (l : Limits) (old : ExpRecord) (i : Nat) {a : Nat} (ha : 32 ∣ a) : (rebuiltRecord l old i a).Lawful :=
  ⟨rfl, ha⟩

theorem splitExposure_lawful {l : Limits} (hl : 32 ∣ l.aMax) (e : Nat) : (splitExposure l e).Lawful :=
  ⟨rfl, dvd_min_of_dvd hl (Dvd.intro _ rfl)⟩

/-! ## Records retired, matched and acknowledged (R29 to R31, R40, R41) -/

theorem Exposure.RecordsLawful.switchBank {e : Exposure} (h : e.RecordsLawful) : e.switchBank.RecordsLawful := by
  unfold Exposure.switchBank
  split <;> exact h

theorem Exposure.RecordsLawful.retire {e : Exposure} (h : e.RecordsLawful) (f : FrameNo) : (e.retire f).RecordsLawful := by
  obtain ⟨hin, hpend, hout⟩ := h
  refine ⟨fun r hr => ?_, fun q hq => hpend q (List.mem_of_mem_filter hq), hout⟩
  simp only [Exposure.retire] at hr
  split at hr
  · next p hp =>
    cases hr
    exact hpend p (List.mem_of_mem_filter (List.mem_of_getLast? hp))
  · exact hin r hr

theorem Exposure.RecordsLawful.matchFrame {e : Exposure} (h : e.RecordsLawful) {l : Limits} (hl : 32 ∣ l.aMax) (iEmb code : Nat) :
    (e.matchFrame l iEmb code).2.RecordsLawful := by
  obtain ⟨hin, hpend, hout⟩ := h
  have ha : 32 ∣ min (code * 32) l.aMax := dvd_min_of_dvd (Dvd.intro_left _ rfl) hl
  unfold Exposure.matchFrame
  dsimp only
  split
  · exact ⟨fun r hr => by cases hr; exact seededRecord_lawful _ _ ha, hpend, hout⟩
  · split
    · exact ⟨hin, hpend, hout⟩
    · exact ⟨fun r hr => by cases hr; exact rebuiltRecord_lawful _ _ _ ha, hpend, hout⟩

/-- The exposure unit that the match of a frame leaves holds lawful records, and counts within its limit (R29 to R31). -/
theorem State.matchFound_lawful (s : State) (x : Side) (e : Embedded) :
    ((s.side x).exposure.RecordsLawful → (s.matchFound x e).2.RecordsLawful) ∧
      ((s.side x).exposure.mismatchCount ≤ 255 → (s.matchFound x e).2.mismatchCount ≤ 255) ∧
      (s.matchFound x e).2.trim = (s.side x).exposure.trim := by
  refine ⟨fun h => (h.switchBank.retire _).matchFrame (limitsOf_aMax _ _) _ _, fun h => ?_, ?_⟩
  · unfold State.matchFound Exposure.matchFrame
    dsimp only
    split
    · exact Nat.zero_le _
    · split
      · exact Nat.zero_le _
      · exact satSucc_le _ _
  · have hm := congrArg Exposure.trim (Exposure.matchFrame_frame (((s.side x).exposure.switchBank).retire e.number)
      (limitsOf (s.profileOf x ((s.side x).exposure.switchBank).bank) (s.sensorOf x)) e.integ e.code)
    have hs := congrArg Exposure.trim (Exposure.switchBank_frame (s.side x).exposure)
    exact hm.trans hs

theorem mem_joinPending {q : List PendingEntry} {e p : PendingEntry} (h : p ∈ joinPending q e) : p ∈ q ∨ p = e := by
  rcases List.mem_append.mp h with h | h
  · exact .inl (List.mem_of_mem_filter (List.mem_of_mem_drop h))
  · exact .inr (List.mem_singleton.mp h)

theorem Exposure.RecordsLawful.acknowledged {e : Exposure} (h : e.RecordsLawful) (fcur : Option FrameNo) (n : Nat) (g : BitVec 8) :
    (e.acknowledged fcur n g).RecordsLawful := by
  have hall := h
  obtain ⟨hin, hpend, hout⟩ := h
  unfold Exposure.acknowledged
  split
  · exact hall
  · next o ho =>
    have hrest : ∀ p ∈ e.outstanding.filter (fun p => !decide (p.group = g)), p.record.Lawful :=
      fun p hp => hout p (List.mem_of_mem_filter hp)
    cases fcur with
    | none => exact ⟨hin, hpend, hrest⟩
    | some f =>
      refine ⟨hin, fun p hp => ?_, hrest⟩
      rcases mem_joinPending hp with hp | rfl
      · exact hpend p hp
      · exact hout o (List.mem_of_find?_eq_some ho)

/-- The exposure unit counts and keeps its trim as an acknowledged group changes its queues. -/
theorem Exposure.acknowledged_counts (e : Exposure) (fcur : Option FrameNo) (n : Nat) (g : BitVec 8) :
    (e.acknowledged fcur n g).mismatchCount = e.mismatchCount ∧ (e.acknowledged fcur n g).trim = e.trim := by
  unfold Exposure.acknowledged
  split
  · exact ⟨rfl, rfl⟩
  · cases fcur <;> exact ⟨rfl, rfl⟩

/-- A change of the exposure unit that keeps its records, its mismatch count's limit and its trim's range is sound. -/
theorem SideState.Sound.onExposure {e : Exposure} (hr : d.exposure.RecordsLawful → e.RecordsLawful)
    (hm : d.exposure.mismatchCount ≤ 255 → e.mismatchCount ≤ 255)
    (ht : -256 ≤ d.exposure.trim ∧ d.exposure.trim ≤ 256 → -256 ≤ e.trim ∧ e.trim ≤ 256) : d.Sound { d with exposure := e } where
  slots := id
  counts := fun ⟨hb, hg, hc, hd, hs⟩ => ⟨hb, hg, hm hc, ht hd, hs⟩
  records h := by
    rw [SideState.recordsLawful_iff] at h ⊢
    exact ⟨hr h.1, h.2⟩

theorem State.Sound.onExposure {g : SideState → Exposure}
    (hr : (s.side x).exposure.RecordsLawful → (g (s.side x)).RecordsLawful)
    (hm : (s.side x).exposure.mismatchCount ≤ 255 → (g (s.side x)).mismatchCount ≤ 255)
    (ht : -256 ≤ (s.side x).exposure.trim ∧ (s.side x).exposure.trim ≤ 256 →
      -256 ≤ (g (s.side x)).trim ∧ (g (s.side x)).trim ≤ 256) :
    s.Sound (s.onSide x (fun d => { d with exposure := g d })) := .onSide (.onExposure hr hm ht)

end Sys2Proof.Machine
end

section
/-! The sensor bus, the frame start, the frame end and the loss of the port keep the laws (R6, R7, R9, R16 to R22, R34 to R42). -/

namespace Sys2Proof.Machine

variable {s t u : State} {x : Side} {d e : SideState}

/-! ## The sensor bus -/

theorem State.openAttempt_sound (s : State) (x : Side) (e : WriteEntry) : s.Sound (s.openAttempt x e) := by
  have h : s.Sound { (s.deviceAddress x).2 with opened := (s.deviceAddress x).2.opened + 1 } :=
    (State.Sound.ofReads (State.deviceAddress_frame s x) (State.deviceAddress_steps s x) (State.deviceAddress_reread s x)).trans
      (.of_eq rfl rfl rfl rfl)
  unfold State.openAttempt
  exact h.thenOnSide rfl

theorem State.startAttempt_sound (s : State) (x : Side) : s.Sound (s.startAttempt x) := by
  unfold State.startAttempt
  dsimp only
  split
  · exact (State.Sound.onSide_same (by rfl)).trans (State.openAttempt_sound _ x _)
  · exact .refl s

theorem State.finishHead_sound (s : State) (x : Side) : s.Sound (s.finishHead x) :=
  (State.Sound.onSide_same (by rfl)).trans (State.startAttempt_sound _ x)

theorem State.serviceWrite_sound (reg val : Word) (s : State) (x : Side) : s.Sound (State.serviceWrite reg val s x) :=
  (State.Sound.onSide_same (by rfl)).trans (State.startAttempt_sound _ x)

theorem SideState.askFor_sound (d : SideState) (b : Bus) (g : BitVec 8) (sup : Option (BitVec 8)) {r : ExpRecord} (hr : r.Lawful) :
    d.Sound (d.askFor b g sup r) := by
  refine .trans (e := { d with bus := b }) (.of_judged rfl) (.onExposure (fun h => ?_) id id)
  obtain ⟨hin, hpend, hout⟩ := h
  refine ⟨hin, hpend, fun o ho => ?_⟩
  rcases List.mem_append.mp ho with ho | ho
  · exact hout o (List.mem_of_mem_filter ho)
  · rw [List.mem_singleton.mp ho]; exact hr

theorem State.sendExposure_sound (s : State) (x : Side) {r : ExpRecord} (hr : r.Lawful) : s.Sound (s.sendExposure x r) := by
  rcases h : s.groupAsked x r with ⟨⟨g, sup⟩ | -, b⟩
  · rw [State.sendExposure_queued h]
    exact (State.Sound.onSide (SideState.askFor_sound _ b g sup hr)).trans (State.startAttempt_sound _ x)
  · rw [State.sendExposure_dropped h]
    exact .onSide_same rfl

theorem State.groupAbandoned_sound (s : State) (x : Side) (g : BitVec 8) : s.Sound (s.groupAbandoned x g) :=
  .onExposure (fun ⟨hin, hpend, hout⟩ => ⟨hin, hpend, fun o ho => hout o (List.mem_of_mem_filter ho)⟩) id id

theorem State.writeFailed_sound (s : State) (x : Side) (e : WriteEntry) (rest : List WriteEntry) : s.Sound (s.writeFailed x e rest) := by
  unfold State.writeFailed
  cases e.origin with
  | exposure =>
    exact (((State.Sound.onSide_same (by rfl)).trans (State.groupAbandoned_sound _ x _)).thenRaise _ _).trans
      (State.startAttempt_sound _ x)
  | service => exact ((State.Sound.onSide_same (by rfl)).thenRaise _ _).trans (State.startAttempt_sound _ x)

theorem State.attemptFailed_sound (s : State) (x : Side) : s.Sound (s.attemptFailed x) := by
  unfold State.attemptFailed
  split
  · exact .refl s
  · next e rest hb =>
    exact .ite (State.finishHead_sound s x) (.ite ((State.Sound.onSide_same (by rfl)).trans (State.openAttempt_sound _ x e))
      (State.writeFailed_sound s x e rest))

theorem State.groupAcknowledged_sound (s : State) (x : Side) (g : BitVec 8) : s.Sound (s.groupAcknowledged x g) := by
  rw [State.groupAcknowledged_eq]
  obtain ⟨hm, ht⟩ := Exposure.acknowledged_counts (s.side x).exposure (s.side x).port.fcur (s.sensorOf x).nLat g
  exact .onExposure (fun h => h.acknowledged _ _ _) (fun h => hm.symm ▸ h) (fun h => ht.symm ▸ h)

theorem State.reportAck_sound (s : State) (x : Side) (e : WriteEntry) (rest : List WriteEntry) : s.Sound (s.reportAck x e rest) :=
  .ite ((State.groupAcknowledged_sound s x _).trans (State.endSensorBus_sound _ x)) (.refl s)

theorem State.attemptAcked_sound (s : State) (x : Side) : s.Sound (s.attemptAcked x) := by
  cases hb : (s.side x).bus.buffer with
  | nil => simp only [State.attemptAcked, hb]; exact .refl s
  | cons e rest =>
    by_cases hf : (s.side x).bus.finishing = true
    · rw [State.attemptAcked_finishing hb hf]
      exact State.finishHead_sound s x
    · rw [State.attemptAcked_eq hb (by simpa using hf)]
      exact ((State.Sound.onSide_same (by rfl)).trans (State.reportAck_sound _ x e rest)).trans (State.startAttempt_sound _ x)

theorem State.busResponse_sound (s : State) (x : Side) (n : Nat) (ack : Bool) : s.Sound (s.busResponse x n ack) := by
  unfold State.busResponse
  exact .ite (.ite (State.attemptAcked_sound s x) (State.attemptFailed_sound s x)) (.refl s)

/-! ## What the blocks leave of a side (R53, R57, R162) -/

theorem SideState.onNewest_kept (d : SideState) (f : FrameRecord → FrameRecord) : (d.onNewest f).kept = d.kept := by
  have h := congrArg SideState.kept (SideState.onNewest_frame d f)
  exact h

theorem SideState.takeMatch_kept (d : SideState) (m : MatchResult × Exposure) : (d.takeMatch m).kept = d.kept := by
  have h := congrArg SideState.kept (SideState.takeMatch_frame d m)
  exact h

theorem SideState.takeMean_kept (d : SideState) (l : Ladder) (b : Bank) (m : Nat) (scene : Int) :
    (d.takeMean l b m scene).kept = d.kept := by
  have h := congrArg SideState.kept (SideState.takeMean_frame d l b m scene)
  exact h

theorem SideState.readySlot_kept (d : SideState) : d.readySlot.kept = d.kept := by
  have h := congrArg SideState.kept (SideState.readySlot_frame d)
  exact h

theorem SideState.beginDevelopment_kept (d : SideState) (e : Embedded) (list : List DefectEntry) (now : Tick) (serial : Nat) :
    (d.beginDevelopment e list now serial).kept = d.kept := by
  unfold SideState.beginDevelopment SideState.fillSlot SideState.onNewest
  dsimp only
  split <;> split <;> rfl

theorem SideState.losePort_kept (d : SideState) : d.losePort.kept = d.kept := by
  unfold SideState.losePort
  split
  · exact SideState.discardFrame_kept d
  · rfl

/-! ## The frame start (R6) -/

theorem SideState.openFrame_sound (d : SideState) (e : Embedded) (now : Tick) : d.Sound (d.openFrame e now) where
  slots h := h.of_slots (fun _ => .inr ⟨rfl, rfl⟩) (fun _ _ => rfl)
  counts := id
  records h := by
    rw [SideState.recordsLawful_iff] at h ⊢
    obtain ⟨hexp, hhist, hinp⟩ := h
    refine ⟨hexp, fun r hr => ?_, hinp⟩
    rcases List.mem_cons.mp hr with rfl | hr
    · exact ExpRecord.Lawful.zero
    · exact hhist r (List.mem_of_mem_take hr)

theorem State.applyPendingEdits_sound (s : State) (x : Side) : s.Sound (s.applyPendingEdits x).2 := by
  have hstore := State.applyPendingEdits_store s x
  rw [State.applyPendingEdits_eq] at hstore ⊢
  dsimp only at hstore ⊢
  exact .ofTablesThen (State.readList_frame s x _) (State.readList_steps s x _) rfl hstore

theorem State.takeCopies_sound (s : State) (x : Side) : s.Sound (s.takeCopies x) :=
  .ofTablesThen (State.copyTables_frame x TableId.all _ s) (State.copyTables_steps x TableId.all _ s) rfl (State.takeCopies_store s x)

theorem State.takeTables_sound (s : State) (x : Side) : s.Sound (s.takeTables x).2 := by
  rw [State.takeTables_eq]
  have hlist : s.Sound (s.takeList x).2 := (State.swapPending_sound s x).trans (State.applyPendingEdits_sound _ x)
  exact (hlist.trans (State.takeCopies_sound _ x)).trans
    (.ofReads (State.checkPoisonAtStart_frame _ x) (State.checkPoisonAtStart_steps _ x) (State.checkPoisonAtStart_reread _ x))

theorem SideState.takeMatch_sound (d : SideState) {m : MatchResult × Exposure} (hr : d.exposure.RecordsLawful → m.2.RecordsLawful)
    (hc : d.exposure.mismatchCount ≤ 255 → m.2.mismatchCount ≤ 255) (ht : m.2.trim = d.exposure.trim) : d.Sound (d.takeMatch m) where
  slots := by unfold SideState.takeMatch SideState.onNewest; split <;> exact id
  counts h := by
    obtain ⟨hb, hg, hm, htr, hs⟩ := h
    have hcounts : SideState.CountsLawful { d with exposure := m.2 } := ⟨hb, hg, hc hm, ht.symm ▸ htr, hs⟩
    unfold SideState.takeMatch SideState.onNewest
    split <;> exact hcounts
  records h := by
    have hm := hr ((SideState.recordsLawful_iff d).mp h).1
    have hnew := (d.onNewest_sound (f := fun r =>
      { r with exposure := m.2.inForce.getD r.exposure, matched := decide (m.1 ≠ .mismatched), bank := m.2.bank })
      fun r hr => ExpRecord.Lawful.getD hm.1 hr).records h
    rw [SideState.recordsLawful_iff] at hnew ⊢
    exact ⟨hm, hnew.2⟩

theorem State.matchExposure_sound (s : State) (x : Side) (e : Embedded) : s.Sound (s.matchExposure x e) := by
  rw [State.matchExposure_eq]
  obtain ⟨hr, hc, ht⟩ := State.matchFound_lawful s x e
  exact .trans (.onSide (SideState.takeMatch_sound _ hr hc ht) (SideState.takeMatch_kept _ _)) (State.reportMatch_sound _ x _ _)

theorem State.frameTaken_sound (s : State) (x : Side) (e : Embedded) : s.Sound (s.frameTaken x e).2 :=
  ((((State.Sound.onSide (SideState.openFrame_sound _ e s.tick)).trans (State.checkHot_sound _ x _)).trans
    (State.takeTables_sound _ x)).thenOnSide (by rfl)).trans (State.matchExposure_sound _ x e)

/-- Before development begins the port receives lines, and the slots are those from before the frame start. -/
theorem State.frameTaken_slots (s : State) (x : Side) (e : Embedded) :
    ((s.frameTaken x e).2.side x).port.phase = .lines ∧ ((s.frameTaken x e).2.side x).store = (s.side x).store := by
  obtain ⟨hport, -, -, -, hstore, -⟩ := State.frameLoaded_blocks s x e
  have hside : (s.frameTaken x e).2.side x = (((s.frameLoaded x e).stepWindows x).matchExposure x e).side x := rfl
  have hmatch := SideState.takeMatch_frame (((s.frameLoaded x e).stepWindows x).side x) (((s.frameLoaded x e).stepWindows x).matchFound x e)
  have mport := congrArg (fun d : SideState => d.port.phase) hmatch
  have mstore := congrArg SideState.store hmatch
  rw [hside, State.matchExposure_side]
  refine ⟨mport.trans ?_, mstore.trans ?_⟩
  · simp only [State.stepWindows, State.onSide_side, hport]
  · simp only [State.stepWindows, State.onSide_side, hstore]

/-- The developer takes its inputs with a lawful exposure record (R54, R58). -/
theorem SideState.Sound.onDev {v : Developer} (h : d.RecordsLawful → ∀ i, v.inputs = some i → i.exposure.Lawful) :
    d.Sound { d with dev := v } where
  slots := id
  counts := id
  records hd := by
    have hrec := (SideState.recordsLawful_iff d).mp hd
    exact (SideState.recordsLawful_iff _).mpr ⟨hrec.1, hrec.2.1, h hd⟩

/-- What the start of development makes of the slots, beside its sound part: the slot that is filled. -/
theorem SideState.beginDevelopment_sound (d : SideState) (e : Embedded) (list : List DefectEntry) (now : Tick) (serial : Nat) :
    (d.fillSlot d.comp.mode.geometry e.number now serial).2.Sound (d.beginDevelopment e list now serial) := by
  have hnew := (d.fillSlot d.comp.mode.geometry e.number now serial).2.onNewest_sound_of_exposure
    (f := fun r => { r with slot := (d.fillSlot d.comp.mode.geometry e.number now serial).1 }) fun _ => rfl
  unfold SideState.beginDevelopment
  dsimp only
  refine hnew.trans (.onDev fun h i hi => ?_)
  cases hi
  exact ExpRecord.Lawful.getD ((SideState.recordsLawful_iff _).mp h).1.1 .zero

/-- A frame start is taken while no slot is FILLING (R6, R110). -/
theorem State.frameStart_sound (s : State) (x : Side) (e : Embedded) (hp : (s.side x).port.phase ≠ .lines) :
    s.Sound (s.frameStart x e) := by
  have htaken := State.frameTaken_sound s x e
  obtain ⟨hlines, hstore⟩ := State.frameTaken_slots s x e
  have hbegin := SideState.beginDevelopment_sound ((s.frameTaken x e).2.side x) e (s.frameTaken x e).1 (s.frameTaken x e).2.tick
    (s.side x).nextSerial
  have hfill : (s.side x).Sound (((s.frameTaken x e).2.side x).fillSlot ((s.frameTaken x e).2.side x).comp.mode.geometry e.number
      (s.frameTaken x e).2.tick (s.side x).nextSerial).2 :=
    { slots := fun hs => ((htaken.side x).slots hs).fillSlot hlines (fun n => by rw [hstore]; exact hs.not_filling hp n) _ _ _ _
      counts := fun hc => by
        have h := (htaken.side x).counts hc
        unfold SideState.fillSlot
        split <;> exact h
      records := fun hr => by
        have h := (htaken.side x).records hr
        unfold SideState.fillSlot
        split <;> exact h }
  rw [State.frameStart_eq]
  refine ⟨fun y => ?_, htaken.part, htaken.store.trans (.onSide (SideState.beginDevelopment_kept _ _ _ _ _))⟩
  rw [State.side_onSide]
  split
  · next hy => exact hy ▸ hfill.trans hbegin
  · exact htaken.side y

theorem State.receiveLine_sound (s : State) (x : Side) (ws : List Sample) : s.Sound (s.receiveLine x ws) := by
  unfold State.receiveLine
  split
  · exact .refl s
  · next hp =>
    have hne : (s.side x).port.phase ≠ .lines := by rw [hp]; decide
    unfold State.statusLine
    dsimp only
    split
    · exact State.malformed_sound s x _ _ fun _ => hne
    split
    · exact (State.Sound.onSide_same (by rfl)).trans (State.frameStart_sound _ x _ (by rw [State.onSide_side]; exact hne))
    · exact .onSide_same rfl
  · unfold State.activeLine
    dsimp only
    split
    · exact State.malformed_sound s x _ _ fun h => by cases h
    · exact (State.Sound.onSide_same (by rfl)).trans (State.developLine_sound _ x _ _)

/-! ## The frame end (R7) -/

/-- Metering leaves the exposures of the records; the ladder leaves the exposure unit's records and counts (R35, R44). -/
theorem SideState.takeMean_sound (d : SideState) (l : Ladder) (b : Bank) (m : Nat) (scene : Int) : d.Sound (d.takeMean l b m scene) := by
  have hnew := d.onNewest_sound_of_exposure (f := fun r => { r with metered := some (m, scene) }) fun _ => rfl
  have hladder := Exposure.evaluateLadder_frame (d.onNewest (fun r => { r with metered := some (m, scene) })).exposure l b scene
  have hin := congrArg Exposure.inForce hladder
  have hpend := congrArg Exposure.pendingQueue hladder
  have hout := congrArg Exposure.outstanding hladder
  have hcount := congrArg Exposure.mismatchCount hladder
  have htrim := congrArg Exposure.trim hladder
  simp only at hin hpend hout hcount htrim
  refine hnew.trans (.onExposure (fun h => ?_) (fun h => hcount ▸ h) (fun h => htrim ▸ h))
  rw [Exposure.RecordsLawful, hin, hpend, hout]
  exact h

theorem State.meterFrame_sound (s : State) (x : Side) (inp : FrameInputs) (zones : List ZoneAcc) :
    s.Sound (s.meterFrame x inp zones) := by
  have hmetered : ∀ m, s.Sound (s.metered x inp m) := fun m =>
    .onSide (SideState.takeMean_sound _ _ _ _ _) (SideState.takeMean_kept _ _ _ _ _)
  cases h : meteredMean (s.profileOf x inp.bank) inp.main zones with
  | none =>
    rw [State.meterFrame_none h]
    exact .onSide (SideState.onNewest_sound_of_exposure _ fun _ => rfl) (SideState.onNewest_kept _ _)
  | some m =>
    rw [State.meterFrame_some h]
    exact .ite (hmetered m) ((hmetered m).trans (State.sendExposure_sound _ x (splitExposure_lawful (limitsOf_aMax _ _) _)))

/-- The FILLING slot is READY before the port is seen CLOSED (R7, R111). -/
theorem State.closeGood_sound (s : State) (x : Side) : s.Sound (s.closeGood x) where
  side y := by
    rcases Side.eq_or_eq_other x y with rfl | rfl
    · have hready := SideState.readySlot_sound (s.side y)
      rw [State.closeGood_side]
      exact
        { slots := fun h => (hready.slots h).of_slots (fun _ => .inr ⟨rfl, rfl⟩)
            (fun n hn => absurd hn (SideState.readySlot_not_filling h n))
          counts := fun h => (hready.counts h).onPort (Nat.zero_le _) (satSucc_le _ _)
          records := hready.records }
    · rw [(State.closeGood_within s x).other]
      exact .refl _
  part h := (State.endSensorFaults_sound _ x).part h
  store := ((State.StoreSound.onSide (by rfl)).trans (State.endSensorFaults_sound _ x).store).trans
    (.onSide (SideState.readySlot_kept _))

theorem SideState.handFrame_sound (d : SideState) (p : Profile) (f : FrameNo) : d.Sound (d.handFrame p f) := by
  have hnew := d.onNewest_sound_of_exposure
    (f := fun r => { r with glare := some (litCountOf p d.dev.zones, suspendedOf p d.dev.zones) }) fun _ => rfl
  exact (hnew.trans (e := _) (f := d.updateGlare p f d.dev.zones) ⟨id, id, id⟩).trans (.onDev fun _ i hi => by cases hi)

theorem State.goodFrameEnd_sound (s : State) (x : Side) : s.Sound (s.goodFrameEnd x) := by
  have hclose := State.closeGood_sound s x
  rw [State.goodFrameEnd_eq]
  split
  · exact (hclose.trans (.onSideStore (SideState.handFrame_sound _ _ _) (State.handFrame_store _ _ _ _))).trans
      (State.meterFrame_sound _ x _ _)
  · exact hclose

theorem State.frameEnd_sound (s : State) (x : Side) : s.Sound (s.frameEnd x) := by
  unfold State.frameEnd
  dsimp only
  split
  · exact .refl s
  · next hp => exact State.malformed_sound s x _ _ fun _ => by rw [hp]; decide
  · exact .ite (State.goodFrameEnd_sound s x) (State.malformed_sound s x _ _ fun h => by cases h)

/-! ## The loss of the port (R9) -/

theorem SideState.losePort_sound (d : SideState) : d.Sound d.losePort := by
  by_cases hp : d.port.phase = .lines
  · have hdiscard := SideState.discardFrame_sound d
    have hdiscards : d.SlotsLawful → d.DiscardsFilling { d.discardFrame with port := d.losePort.port } :=
      fun h => SideState.discardSlot_discards d h.1
    have hlose : d.losePort = { d.discardFrame with port := d.losePort.port } := by simp [SideState.losePort, hp]
    rw [hlose]
    refine ⟨fun h => (hdiscards h).slotsLawful h, fun h => ?_, hdiscard.records⟩
    have hport := SideState.losePort_port d
    refine (hdiscard.counts h).onPort ?_ ?_
    · rw [hport]; exact h.1
    · rw [hport]; exact h.2.1
  · have hlose : d.losePort = { d with port := { d.port with state := .lost, lossCond := true } } := by
      simp [SideState.losePort, hp]
    rw [hlose]
    exact .of_judged rfl

theorem State.lossExpiry_sound (s : State) (x : Side) : s.Sound (s.lossExpiry x) := by
  rw [State.lossExpiry_eq]
  exact ((State.Sound.onSide (SideState.losePort_sound _) (SideState.losePort_kept _)).thenRaise _ _).trans (State.swapPending_sound _ x)

end Sys2Proof.Machine
end

section
/-! The output, the links and the directives keep the laws (R99, R101, R118 to R124, R133 to R152, R185 to R209). -/

namespace Sys2Proof.Machine

variable {s t u : State} {x l : Side} {d e : SideState}

/-! ## Articulation (R99, R101) -/

theorem clamp_mem (v : Int) {lo hi : Int} (h : lo ≤ hi) : lo ≤ clamp v lo hi ∧ clamp v lo hi ≤ hi := by
  unfold clamp
  omega

/-- The articulation record takes an angle in its range. -/
theorem State.Sound.onArtic {a : Articulation} (h : -900 ≤ a.angle ∧ a.angle ≤ 900) : s.Sound { s with artic := a } :=
  ⟨fun _ => .refl _, fun ⟨_, hshare, hcount⟩ => ⟨h, hshare, hcount⟩, .of_sides rfl rfl rfl⟩

theorem State.setAngle_sound (s : State) (a : Int) : s.Sound (s.setAngle a) := by
  have h : s.Sound { s with artic := { angle := clamp a (-900) 900, tick := s.tick, stale := false } } :=
    .onArtic (clamp_mem a (by decide))
  unfold State.setAngle
  dsimp only
  exact .ite (h.thenEnd _) h

theorem State.articulationExpiry_sound (s : State) : s.Sound s.articulationExpiry := by
  have stale : s.Sound { s with artic := { s.artic with stale := true } } :=
    ⟨fun _ => .refl _, fun ⟨hangle, hshare, hcount⟩ => ⟨hangle, hshare, hcount⟩, .of_sides rfl rfl rfl⟩
  exact .ite (.refl s) (.ite (.refl s) (stale.thenRaise _ _))

/-! ## The composer's counts (R137, R138, R148) -/

theorem Composer.Counted.count {c : Composer} (h : c.Counted) (fresh : Bool) : (c.count fresh).Counted := by
  obtain ⟨hrep, hstart, hrest⟩ := h
  unfold Composer.count
  split
  · exact ⟨Nat.zero_le _, hstart, hrest⟩
  · refine ⟨satSucc_le _ _, ?_, hrest⟩
    dsimp only
    split
    · exact satSucc_le _ _
    · exact hstart

/-- A transition of the view state sets the start count to 0 or leaves it, and leaves the other counts. -/
theorem Composer.Counted.move {c : Composer} (h : c.Counted) (y : Layout) (fresh : Bool) : (c.move y fresh).2.Counted := by
  have start : Composer.Counted { c with startCount := 0 } := ⟨h.1, Nat.zero_le _, h.2.2⟩
  unfold Composer.move
  split
  case h_1 => exact start
  case h_2 => split <;> [exact start; exact h]
  case h_3 => exact h
  case h_4 => split <;> [exact h; (split <;> exact h)]
  case h_5 => exact h
  case h_6 => split <;> exact h
  case h_7 => split <;> exact h
  case h_8 => exact h
  case h_9 => split <;> exact h
  case h_10 => exact h

/-- An echo check counts the silence and the strikes, each up to its limit (R148). -/
theorem Composer.echoCheck_eq (c : Composer) :
    ∃ n, n ≤ 2 ∧ c.echoCheck.2 = { c with silence := satSucc c.silence 255, lagStrikes := n } := by
  cases hl : c.lag with
  | none => exact ⟨0, by decide, by simp only [Composer.echoCheck, hl, apply_ite Prod.snd, ite_self]⟩
  | some k =>
    refine ⟨if 3 < k then satSucc c.lagStrikes 2 else 0, ?_, by simp only [Composer.echoCheck, hl, apply_ite Prod.snd, ite_self]⟩
    split
    · exact satSucc_le _ _
    · exact Nat.zero_le _

theorem Composer.Counted.echoCheck {c : Composer} (h : c.Counted) : c.echoCheck.2.Counted := by
  obtain ⟨hrep, hstart, -, -, hgood⟩ := h
  obtain ⟨n, hn, hc⟩ := c.echoCheck_eq
  rw [hc]
  exact ⟨hrep, hstart, satSucc_le _ _, hn, hgood⟩

theorem Composer.Counted.withGood {c : Composer} (h : c.Counted) {n : Nat} (hn : n ≤ 2) (f : Bool) :
    Composer.Counted { c with goodChecks := n, freezeCond := f } := by
  obtain ⟨hrep, hstart, hsil, hlag, -⟩ := h
  exact ⟨hrep, hstart, hsil, hlag, hn⟩

/-! ## Output frames (R123, R133) -/

theorem State.closeOutputFrame_sound (s : State) (x : Side) : s.Sound (s.closeOutputFrame x) := by
  have clean : ∀ n, ((s.side x).store.cleanCount ≤ 60 → n ≤ 60) →
      s.Sound (s.onSide x (fun d => { d with store := { d.store with cleanCount := n, frameDirty := false } })) := fun n hn =>
    .onSide ⟨id, fun ⟨hb, hg, hm, ht, hs, hc⟩ => ⟨hb, hg, hm, ht, hn hs, hc⟩, id⟩
  have count : (s.side x).store.cleanCount ≤ 60 →
      (if (s.side x).store.frameDirty then (s.side x).store.cleanCount else satSucc (s.side x).store.cleanCount 60) ≤ 60 := fun h => by
    split
    · exact h
    · exact satSucc_le _ _
  unfold State.closeOutputFrame
  dsimp only
  split
  · exact .refl s
  · exact .ite (((clean _ count).thenOnSide (by rfl)).thenEnd _) (clean _ count)

theorem State.reportView_sound (x : Side) (s : State) (r : ViewReport) : s.Sound (State.reportView x s r) := by
  cases r with
  | setStale => exact .thenRaise (.onComp id) _ _
  | setLost n => exact .thenRaise (.onComp id) _ _
  | endStale => exact .thenEnd (.onComp id) _
  | endLost => exact .thenEnd (.onComp id) _

theorem State.updateView_sound (s : State) (x : Side) (fresh : Bool) : s.Sound (s.updateView x fresh) :=
  .trans (.onComp fun h => (h.count fresh).move _ fresh) (.foldl _ (State.reportView_sound x) _)

theorem State.checkEcho_sound (s : State) (x : Side) : s.Sound (s.checkEcho x) := by
  unfold State.checkEcho
  refine .ite ?_ (.refl s)
  dsimp only
  split
  · exact .thenRaise (.onComp fun h => h.echoCheck.withGood (by decide) _) _ _
  · exact .onComp fun h => h.echoCheck.withGood (by decide) _
  · exact .ite (.thenEnd (.onComp fun h => h.echoCheck.withGood (by decide) _) _)
      (.onComp fun h => h.echoCheck.withGood (satSucc_le _ _) _)

theorem SideState.resolveSlots_kept (d : SideState) (m : OutputMode) (now : Tick) (limit : Nat) :
    (d.resolveSlots m now limit).2.kept = d.kept := by
  have h := congrArg SideState.kept (SideState.resolveSlots_frame d m now limit)
  exact h

theorem State.startOutputFrame_sound (s : State) (x : Side) : s.Sound (s.startOutputFrame x) := by
  unfold State.startOutputFrame
  exact (((((((State.Sound.onComp id).trans (.onSide (SideState.resolveSlots_sound _ _ _ _) (SideState.resolveSlots_kept _ _ _ _))).trans
    (State.closeOutputFrame_sound _ x)).trans (State.updateView_sound _ x _)).trans (.onComp id)).trans (.onComp id)).trans
    (State.checkEcho_sound _ x)).trans (.onComp id)

theorem State.statusWord_sound (s : State) (l : Side) (echo : BitVec 32) (panel : Word) : s.Sound (s.statusWord l echo panel) :=
  .ite (.onComp fun ⟨hrep, hstart, _, hrest⟩ => ⟨hrep, hstart, Nat.zero_le _, hrest⟩) (.refl s)

/-! ## Reads of the frame store (R118, R120 to R124) -/

/-- A slot is marked DAMAGED, and the clean count starts again (R122, R123). -/
theorem SideState.damage_sound (d : SideState) (n : SlotNo) :
    d.Sound { d with store := { d.store with
      slots := d.store.slots.set n { d.store.slots.get n with damaged := true },
      cleanCount := 0, fseCond := true, frameDirty := true } } where
  slots h := by
    have get : ∀ m, (d.store.slots.set n { d.store.slots.get n with damaged := true }).get m =
        if m = n then { d.store.slots.get n with damaged := true } else d.store.slots.get m := fun m => Slots.get_set _ _ _ _
    have same : ∀ m, ((d.store.slots.set n { d.store.slots.get n with damaged := true }).get m).state = (d.store.slots.get m).state ∧
        ((d.store.slots.set n { d.store.slots.get n with damaged := true }).get m).content = (d.store.slots.get m).content := fun m => by
      rw [get]
      split
      · next hm => exact hm ▸ ⟨rfl, rfl⟩
      · exact ⟨rfl, rfl⟩
    exact h.of_slots (fun m => .inr (same m)) (fun m hm => h.2.2 m ((same m).1 ▸ hm))
  counts := fun ⟨hb, hg, hm, ht, _, hc⟩ => ⟨hb, hg, hm, ht, Nat.zero_le _, hc⟩
  records := id

theorem State.uncorrectableFrame_sound (s : State) (x : Side) (n : SlotNo) (addr syn : Nat) :
    s.Sound (s.uncorrectableFrame x n addr syn) := by
  have offer : ∀ (s : State) (e : LogRecord), s.Sound (s.offerFrame e) := fun _ _ => .of_eq rfl rfl rfl rfl
  unfold State.uncorrectableFrame
  exact .thenRaise (.trans (.onSide (SideState.damage_sound _ n)) (offer _ _)) _ _

theorem State.readFrameWord_sound (s : State) (x : Side) (n : SlotNo) (addr : Nat) : s.Sound (s.readFrameWord x n addr).2 := by
  unfold State.readFrameWord
  dsimp only
  split
  · exact .of_eq rfl rfl rfl rfl
  · unfold State.reportCorrected
    refine .thenRaise ?_ _ _
    exact .of_eq rfl rfl rfl rfl
  · refine .trans (t := { s with frameStore := { s.frameStore with
      injection := (takeInjection s.frameStore.injection addr).2, lastServed := composerOf x } }) (.of_eq rfl rfl rfl rfl) ?_
    exact State.uncorrectableFrame_sound _ x n addr _

theorem State.serveReads_sound (n : Nat) (q : Sided LineReads) (s : State) : s.Sound (State.serveReads n q s).2 := by
  induction n generalizing q s with
  | zero => exact .refl s
  | succ n ih =>
    unfold State.serveReads
    split
    · exact .refl s
    dsimp only
    split
    · exact .refl s
    · exact (State.readFrameWord_sound _ _ _ _).trans (ih _ _)

/-! ## Links (R185 to R188, R191 to R194) -/

theorem State.queueOn_sound (s : State) (l : Side) (i : RecordId) : s.Sound (s.queueOn l i) := .ite (.onLink _) (.refl s)

theorem State.setLinkDown_sound (s : State) (l : Side) (d : Word) : s.Sound (s.setLinkDown l d) :=
  .ite (.thenRaise (.onLink _) _ _) (.refl s)

/-- A reservation dropped leaves the tables that the commit names (R192). -/
theorem SideTables.dropReservation_named (d : SideTables) (l : Side) :
    (d.dropReservation l).commit.map PendingCommit.tables = d.commit.map PendingCommit.tables := by
  unfold SideTables.dropReservation
  cases d.commit with
  | none => rfl
  | some c =>
    dsimp only [Option.map_some]
    split <;> rfl

theorem State.enterDown_sound (s : State) (l : Side) (d : Word) : s.Sound (s.enterDown l d) := by
  have drop : ∀ (s : State) (x : Side), s.Sound (s.onSide x (fun d => { d with tables := d.tables.dropReservation l })) :=
    fun s x => .onSide_same rfl (congrArg (fun n => { (s.side x).kept with named := n }) (SideTables.dropReservation_named _ l))
  have trim : ∀ s : State, s.Sound (s.onSide l (fun d => { d with exposure := { d.exposure with trim := 0 } })) :=
    fun s => .onExposure id id (fun _ => by dsimp only; decide)
  have handOver : ∀ s : State, s.Sound (s.handOver l) := fun s =>
    .ite (.foldl _ (fun s i => State.queueOn_sound s _ i) s) (.refl s)
  exact (((((State.Sound.onLink _).trans (drop _ .left)).trans (drop _ .right)).trans (trim _)).trans (handOver _)).trans
    (State.setLinkDown_sound _ l d)

theorem State.enterUp_sound (s : State) (l : Side) : s.Sound (s.enterUp l) := by
  rw [State.enterUp_eq]
  have ends : ∀ s : State, s.Sound (s.endLinkDown l) := fun s => .ite (.thenEnd (.onLink _) _) (.refl s)
  have rebuild : ∀ s : State, s.Sound (s.rebuild l) := fun s => .foldl _ (fun s i => State.queueOn_sound s _ i) s
  exact (((State.Sound.onLink _).trans (ends _)).trans (rebuild _)).trans
    (.onComp fun ⟨hrep, hstart, _⟩ => ⟨hrep, hstart, Nat.zero_le _, Nat.zero_le _, Nat.zero_le _⟩)

theorem State.trainingRequest_sound (s : State) (l : Side) : s.Sound (s.trainingRequest l) := by
  unfold State.trainingRequest
  split
  · exact .onLink _
  · exact .refl s
  · exact (State.enterDown_sound s l 1).trans (.onLink _)

theorem State.linkReady_sound (s : State) (l : Side) : s.Sound (s.linkReady l) := by
  unfold State.linkReady
  split
  · exact .refl s
  · exact State.enterUp_sound s l
  · exact .refl s

theorem State.lossOfLock_sound (s : State) (l : Side) : s.Sound (s.lossOfLock l) := by
  unfold State.lossOfLock
  split
  · exact .refl s
  · exact State.enterDown_sound s l 2
  · exact State.enterDown_sound s l 1

theorem State.sendSlot_sound (s : State) (l : Side) (period : Fin 1300) : s.Sound (s.sendSlot l period) := by
  unfold State.sendSlot
  split
  · split <;> exact .onLink _
  · exact .onLink _

theorem State.sendPixels_sound (s : State) (x : Side) (y : Nat) (ws : List (Option (BitVec 64))) : s.Sound (s.sendPixels x y ws) := by
  unfold State.sendPixels
  exact .onLink _

theorem State.linePeriod_sound (s : State) (period : Fin 1300) : s.Sound (s.linePeriod period) := by
  have hslots := (State.sendSlot_sound s .left period).trans (State.sendSlot_sound _ .right period)
  have hserved : ∀ u : State, u.Sound { u with frameStore := { u.frameStore with lastServed := .rightComposer } } :=
    fun _ => .of_eq rfl rfl rfl rfl
  unfold State.linePeriod
  dsimp only
  split
  · exact hslots.trans (hserved _)
  · exact (((hslots.trans (hserved _)).trans (State.serveReads_sound _ _ _)).trans
      (State.sendPixels_sound _ .left _ _)).trans (State.sendPixels_sound _ .right _ _)

end Sys2Proof.Machine
end

section
/-! The side restart, the resets and the directives keep the laws (R161 to R169, R190, R195 to R209). -/

namespace Sys2Proof.Machine

variable {s t u : State} {x l : Side} {d e : SideState}

/-! ## Side restart (R14, R51, R116, R151, R208) -/

theorem SideStore.restarted_slot (t : SideStore) (n : SlotNo) : t.restarted.slots.get n = (t.slots.get n).freed := by
  cases n <;> rfl

theorem SideState.restarted_sound (d : SideState) : d.Sound d.restarted where
  slots h := by
    have free : ∀ n, d.restarted.store.slots.get n = (d.restartPort.store.slots.get n).freed :=
      fun n => SideStore.restarted_slot d.restartPort.store n
    exact h.of_slots (fun n => .inl (by rw [free]; exact ⟨rfl, rfl⟩)) (fun n hn => by rw [free] at hn; cases hn)
  counts _ := ⟨Nat.zero_le _, Nat.zero_le _, Nat.zero_le _, (by decide : (-256 : Int) ≤ 0 ∧ (0 : Int) ≤ 256), Nat.zero_le _,
    Nat.zero_le _, Nat.zero_le _, Nat.zero_le _, Nat.zero_le _, Nat.zero_le _⟩
  records _ r hr := by
    have none : d.restarted.heldRecords = [] := rfl
    rw [none] at hr
    cases hr

theorem State.restartSide_sound (s : State) (x : Side) : s.Sound (s.restartSide x) := by
  have hedits : ∀ s : State, s.Sound (s.editsAtRestart x) := fun s =>
    .ite (.refl s) (State.applyPendingEdits_sound s x)
  have hlink : ∀ s : State, s.Sound (s.linkAtRestart x) := fun s =>
    .ite (.onLink _) ((State.Sound.onLink _).trans (State.setLinkDown_sound _ x _))
  exact ((((State.swapPending_sound s x).trans (.onSideStore (SideState.restarted_sound _) (State.restarted_store _ x))).trans
    (.foldl _ (fun s i => .endFault i) _)).trans (hedits _)).trans (hlink _)

/-! ## Resets (R209) -/

theorem State.powerOn_sound (s : State) : s.Sound s.powerOn where
  side x := by
    rw [show s.powerOn.side x = SideState.reset from State.reset_side x]
    exact ⟨fun _ => SideState.reset_slotsLawful, fun _ => SideState.reset_countsLawful, fun _ => SideState.reset_recordsLawful⟩
  part _ := State.reset_partRangesLawful
  store := State.powerOn_store s

theorem State.resetAsserted_sound (s : State) : s.Sound s.resetAsserted := by
  have cut : ∀ (s : State) (x : Side), s.Sound (s.onSide x (fun d => { d with bus := d.bus.cutOff })) := fun s x => .onSide_same rfl
  exact ((cut s .left).trans (cut _ .right)).trans (.of_eq rfl rfl rfl rfl)

/-! ## The bodies of the directives -/

theorem State.forceSides_sound (b : Bank) (xs : List Side) (s : State) : s.Sound (State.forceSides b xs s).2 :=
  .forSides (fun _ _ => .onSide_same rfl) xs s

theorem State.autoSides_sound (xs : List Side) (s : State) : s.Sound (State.autoSides xs s).2 :=
  .forSides (fun _ _ => .onSide_same rfl) xs s

theorem State.aimSides_sound (dx dy : Int) (xs : List Side) (s : State) : s.Sound (State.aimSides dx dy xs s).2 :=
  .forSides (fun _ _ => .onSide_same rfl) xs s

theorem State.trimSides_sound (v : Int) (xs : List Side) (s : State) : s.Sound (State.trimSides v xs s).2 :=
  .forSides (fun s x => State.Sound.onExposure (s := s) (x := x) (g := fun d => { d.exposure with trim := clamp v (-256) 256 }) id id
    fun _ => clamp_mem v (by decide)) xs s

theorem State.modeSides_sound (m : OutputMode) (xs : List Side) (s : State) : s.Sound (State.modeSides m xs s).2 :=
  .forSides (fun _ _ => .onComp id) xs s

theorem State.writeSides_sound (reg val : Word) (xs : List Side) (s : State) : s.Sound (State.writeSides reg val xs s).2 := by
  unfold State.writeSides
  split
  · exact .forSides (State.serviceWrite_sound reg val) xs s
  · exact .refl s

theorem State.editSide_sound {k : EditKind} {sites : List DefectEntry} (hcls : k = .add → ∀ e ∈ sites, e.cls ≠ 3) (x : Side)
    (s : State) : s.Sound (State.editSide k sites x s).2 := by
  have hframe := (State.clearDefectLoss_frame s x).trans (State.readList_frame (s.clearDefectLoss x) x [])
  have hsteps := (State.clearDefectLoss_steps s x).trans (State.readList_steps _ x [])
  have hstore := State.editSide_store hcls x s
  unfold State.editSide at hstore ⊢
  dsimp only at hstore ⊢
  exact .ofTablesThen hframe hsteps (by rfl) hstore

theorem State.editSides_sound {k : EditKind} {sites : List DefectEntry} (hcls : k = .add → ∀ e ∈ sites, e.cls ≠ 3) (xs : List Side)
    (s : State) : s.Sound (State.editSides k sites xs s).2 := by
  induction xs generalizing s with
  | nil => exact .refl s
  | cons x xs ih => exact (State.editSide_sound hcls x s).trans (ih _)

theorem State.editDirective_sound (k : EditKind) (p : Packet) (s : State) : s.Sound (State.editDirective k p s).2 := by
  unfold State.editDirective
  dsimp only
  split
  · split
    · exact .refl s
    next hform =>
    split
    · exact .refl s
    · refine State.editSides_sound (fun hadd e he hcls => hform (.inr (.inr (.inr ⟨hadd, ?_⟩)))) _ s
      exact List.any_eq_true.mpr ⟨e, he, decide_eq_true hcls⟩
  · exact .refl s

theorem State.loadDirective_sound (x : Side) (tb : TableId) (o c : Nat) (ws : List Word) (s : State) :
    s.Sound (State.loadDirective x tb o c ws s).2 := by
  unfold State.loadDirective
  split
  · exact .refl s
  next hform =>
  split
  · exact .refl s
  split
  · exact .refl s
  next hnamed =>
  have hstore := State.loadShadow_store s x tb (o := o) (ws := ws) (by omega) (by simpa using hnamed)
  unfold State.loadShadow at hstore ⊢
  dsimp only at hstore ⊢
  exact .ofTablesThen (State.writeTableWords_frame _ x _ _) (State.writeTableWords_steps _ x _ _) (by rfl) hstore

theorem State.Sound.acceptCommit (h : s.Sound t) (l x : Side) (set : BitVec 13) (hc : s.TablesLawful → t.ShadowsPass x set) :
    s.Sound (State.acceptCommit l x set t).2 := by
  unfold State.acceptCommit
  split <;> dsimp only
  · exact h.thenOnSideStore rfl (.of_lawful fun hs => h.store.trans (State.holdCommit_store t x _ fun _ => hc hs))
  · exact h.swapSet x _ hc

theorem State.commitDirective_sound (l x : Side) (set : BitVec 13) (s : State) : s.Sound (State.commitDirective l x set s).2 := by
  have hread := State.Sound.ofReads (State.validate_frame x (namedTables set) s) (State.validate_steps x (namedTables set) s)
    (State.validate_reread x (namedTables set) s)
  unfold State.commitDirective
  dsimp only
  split
  · exact .refl s
  split
  · exact .refl s
  split
  · exact .refl s
  split
  · exact .refl s
  split
  · exact hread
  · exact hread
  · next hpass => exact hread.acceptCommit l x set fun h => State.validate_shadowsPass h hpass

theorem State.lockDirective_sound (c : LockClass) (s : State) : s.Sound (State.lockDirective c s).2 := by
  unfold State.lockDirective
  split
  · exact .refl s
  · exact .of_eq rfl rfl rfl rfl

theorem State.splitDirective_sound (share : Nat) (s : State) : s.Sound (State.splitDirective share s).2 := by
  unfold State.splitDirective
  split
  · exact .refl s
  split
  · exact .refl s
  split
  · next hform _ hempty =>
    have hshare : share % 256 = 0 ∧ share ≤ 4096 := by omega
    exact ⟨fun _ => .refl _, fun ⟨hangle, _, hcount⟩ => ⟨hangle, hshare, hcount⟩, State.leftShare_store hshare.2 hempty⟩
  · exact .refl s

theorem State.readDefectEntry_sound (s : State) (x : Side) (i : Nat) : s.Sound (s.readDefectEntry x i).2 := by
  have hread := State.Sound.ofReads (State.readEntry_frame s x i) (State.readEntry_steps s x i) (s.readEntry_reread x i)
  have hlose := State.Sound.ofReads (State.loseEntry_frame (s.readEntry x i).2 x) (State.loseEntry_steps _ x) (State.loseEntry_reread _ x)
  have hdrop := State.Sound.ofTables (State.dropEntry_frame ((s.readEntry x i).2.loseEntry x) x i) (State.writeList_steps _ x _)
    (State.dropEntry_store _ x i)
  unfold State.readDefectEntry
  dsimp only
  split
  · exact .refl s
  split
  · exact .refl s
  split
  · exact hread
  · exact (hread.trans hlose).trans hdrop

theorem State.acknowledge_sound (i : RecordId) (s : State) : s.Sound (State.acknowledge i s).2 := by
  unfold State.acknowledge
  dsimp only
  split
  · exact .onFaults (by simp) (by simp) (by simp) (fun h => by
      simp only [State.notify_faults, State.setRecord_faults]
      exact h.set i (h i))
  · exact .refl s
  · exact .refl s

theorem State.maskLinks_sound (m : BitVec 13) (ls : List Side) (s : State) : s.Sound (State.maskLinks m ls s).2 :=
  .forSides (fun _ _ => .onLink _) ls s

theorem State.clearLogs_sound (f t : Bool) (s : State) : s.Sound (s.clearLogs f t) := by
  have check : ∀ s : State, s.Sound s.checkCorrected := fun s => by
    unfold State.checkCorrected
    refine .ite (.thenEnd ?_ _) (.refl s)
    exact .of_eq rfl rfl rfl rfl
  unfold State.clearLogs
  exact .trans (by cases f <;> cases t <;> exact .of_eq rfl rfl rfl rfl) (check _)

theorem State.armFrame_sound (j : Injection) (s : State) : s.Sound (State.armFrame j s) := .of_eq rfl rfl rfl rfl

theorem State.armTable_sound (j : Injection) (s : State) : s.Sound (State.armTable j s) := .of_eq rfl rfl rfl rfl

theorem State.injectDirective_sound {arm : Injection → State → State} (ha : ∀ j s, State.Sound s (arm j s)) (memory size : Nat)
    (p : Packet) (s : State) : s.Sound (State.injectDirective memory size arm p s).2 := by
  unfold State.injectDirective
  split
  · split
    · split
      · exact ha _ s
      · exact .refl s
    · exact .refl s
  · exact .refl s

/-! ## Directives (R195 to R199) -/

theorem State.admission_sound {tag : BitVec 8} {body : State → Response × State} (h : s.Sound (body s).2) :
    s.Sound (s.admission l tag body) := by
  unfold State.admission
  refine .ite (.ite ?_ (.onLink _)) (.refl s)
  dsimp only
  exact h.trans (.onLink _)

theorem State.directive_sound {p : Packet} {body : State → Response × State} (h : s.Sound (body s).2) :
    s.Sound (s.directive l p body) := by
  refine State.admission_sound ?_
  split
  · exact .refl s
  · exact h

theorem State.plainDirective_sound {p : Packet} {body : State → Response × State} (h : s.Sound (body s).2) :
    s.Sound (s.plainDirective l p body) := by
  refine State.directive_sound ?_
  split
  · exact h
  · exact .refl s

theorem State.sidesDirective_sound {p : Packet} {body : List Side → State → Response × State}
    (h : ∀ xs, s.Sound (body xs s).2) : s.Sound (s.sidesDirective l p body) := by
  refine State.plainDirective_sound ?_
  split
  · exact h _
  · exact .refl s

theorem State.readItem_sound {p : Packet} {item : Word} {body : State → Response × State} (h : s.Sound (body s).2) :
    s.Sound (s.readItem l p item body) := by
  refine State.plainDirective_sound ?_
  split
  · exact h
  · exact .refl s

theorem State.readSide_sound {p : Packet} {item : Word} {body : Side → State → Response × State}
    (h : ∀ x, s.Sound (body x s).2) : s.Sound (s.readSide l p item body) := by
  refine State.readItem_sound ?_
  split
  · exact h _
  · exact .refl s

/-- An event taken keeps what its effect keeps; while the reset input is asserted it has none (R209). -/
theorem State.take_sound {f : State → State} (ht : s.take f = .next t) (h : s.Sound (f s)) : s.Sound t := by
  cases hr : s.inReset with
  | true =>
    rw [State.take_inReset s f hr] at ht
    cases ht
    exact .refl s
  | false =>
    rw [State.take_eq s f hr] at ht
    cases ht
    exact h

end Sys2Proof.Machine
end

section
/-! Every step keeps the laws of slots, counts and exposure records, the part's own ranges, and the laws of the table store (O8, O13). -/

namespace Sys2Proof.Machine

theorem exec_sound (i : Instr) (s t : State) (h : exec i s = .next t) : s.Sound t := by
  cases i with
  | frameBeginMarker x =>
    rw [exec_frameBeginMarker] at h
    exact State.take_sound h (State.frameBegin_sound s x)
  | line x ws =>
    rw [exec_line] at h
    exact State.take_sound h (State.receiveLine_sound s x ws)
  | frameEndMarker x =>
    rw [exec_frameEndMarker] at h
    exact State.take_sound h (State.frameEnd_sound s x)
  | lossExpiry x =>
    rw [exec_lossExpiry] at h
    refine State.take_sound h ?_
    split
    · exact State.lossExpiry_sound s x
    · exact .refl s
  | sensorBusResponse x r =>
    rw [exec_sensorBusResponse] at h
    exact State.take_sound h (State.busResponse_sound s x _ _)
  | responseTimerExpiry x =>
    rw [exec_responseTimerExpiry] at h
    refine State.take_sound h ?_
    split
    · exact State.attemptFailed_sound s x
    · exact .refl s
  | articulationTimerExpiry =>
    rw [exec_articulationTimerExpiry] at h
    exact State.take_sound h (State.articulationExpiry_sound s)
  | outputFrameStart x =>
    rw [exec_outputFrameStart] at h
    exact State.take_sound h (State.startOutputFrame_sound s x)
  | linePeriodStart period =>
    rw [exec_linePeriodStart] at h
    exact State.take_sound h (State.linePeriod_sound s period)
  | trainingRequest l =>
    rw [exec_trainingRequest] at h
    exact State.take_sound h (State.trainingRequest_sound s l)
  | ready l =>
    rw [exec_ready] at h
    exact State.take_sound h (State.linkReady_sound s l)
  | lossOfLock l =>
    rw [exec_lossOfLock] at h
    exact State.take_sound h (State.lossOfLock_sound s l)
  | statusWord l echo panel =>
    rw [exec_statusWord] at h
    exact State.take_sound h (State.statusWord_sound s l echo panel)
  | packetDropped _ _ =>
    rw [exec_packetDropped] at h
    exact State.take_sound h (.refl s)
  | unknownDirective l _ p =>
    rw [exec_unknownDirective] at h
    exact State.take_sound h (State.admission_sound (.refl s))
  | frameHistory l p =>
    rw [exec_frameHistory] at h
    exact State.take_sound h (State.readSide_sound fun x => by split <;> exact .refl s)
  | faultRecord l p =>
    rw [exec_faultRecord] at h
    exact State.take_sound h (State.readItem_sound (by split <;> exact .refl s))
  | errorLog l p =>
    rw [exec_errorLog] at h
    refine State.take_sound h (State.readItem_sound ?_)
    split
    · exact .refl s
    · split <;> exact .refl s
  | exposureState l p =>
    rw [exec_exposureState] at h
    exact State.take_sound h (State.readSide_sound fun x => .refl s)
  | glareLevels l p =>
    rw [exec_glareLevels] at h
    exact State.take_sound h (State.readSide_sound fun x => by split <;> exact .refl s)
  | windowState l p =>
    rw [exec_windowState] at h
    exact State.take_sound h (State.readSide_sound fun x => .refl s)
  | slotState l p =>
    rw [exec_slotState] at h
    exact State.take_sound h (State.readSide_sound fun x => .refl s)
  | tableState l p =>
    rw [exec_tableState] at h
    exact State.take_sound h (State.readSide_sound fun x => .refl s)
  | defectEntry l p =>
    rw [exec_defectEntry] at h
    exact State.take_sound h (State.readSide_sound fun x => State.readDefectEntry_sound s x _)
  | partState l p =>
    rw [exec_partState] at h
    exact State.take_sound h (State.readItem_sound (.refl s))
  | loadTable l p =>
    rw [exec_loadTable] at h
    refine State.take_sound h (State.directive_sound ?_)
    split
    · exact State.loadDirective_sound _ _ _ _ _ s
    · exact .refl s
  | commit l p =>
    rw [exec_commit] at h
    refine State.take_sound h (State.plainDirective_sound ?_)
    split
    · split
      · exact .refl s
      · exact State.commitDirective_sound _ _ _ s
    · exact .refl s
  | setProfileModeForce l p =>
    rw [exec_setProfileModeForce] at h
    refine State.take_sound h (State.sidesDirective_sound fun xs => ?_)
    split
    · split
      · exact State.forceSides_sound _ xs s
      · exact .refl s
    · exact .refl s
  | setProfileModeAuto l p =>
    rw [exec_setProfileModeAuto] at h
    refine State.take_sound h (State.sidesDirective_sound fun xs => ?_)
    split
    · exact State.autoSides_sound xs s
    · exact .refl s
  | articulation l p =>
    rw [exec_articulation] at h
    exact State.take_sound h (State.plainDirective_sound (State.setAngle_sound s _))
  | aim l p =>
    rw [exec_aim] at h
    exact State.take_sound h (State.sidesDirective_sound fun xs => State.aimSides_sound _ _ xs s)
  | trim l p =>
    rw [exec_trim] at h
    exact State.take_sound h (State.sidesDirective_sound fun xs => State.trimSides_sound _ xs s)
  | outputMode l p =>
    rw [exec_outputMode] at h
    refine State.take_sound h (State.sidesDirective_sound fun xs => ?_)
    split
    · exact State.modeSides_sound _ xs s
    · exact .refl s
  | defectAdd l p =>
    rw [exec_defectAdd] at h
    exact State.take_sound h (State.directive_sound (State.editDirective_sound .add p s))
  | defectRemove l p =>
    rw [exec_defectRemove] at h
    exact State.take_sound h (State.directive_sound (State.editDirective_sound .remove p s))
  | defectSplit l p =>
    rw [exec_defectSplit] at h
    exact State.take_sound h (State.plainDirective_sound (State.splitDirective_sound _ s))
  | ackFault l p =>
    rw [exec_ackFault] at h
    refine State.take_sound h (State.plainDirective_sound ?_)
    split
    · exact State.acknowledge_sound _ s
    · exact .refl s
  | noticeMask l p =>
    rw [exec_noticeMask] at h
    refine State.take_sound h (State.plainDirective_sound ?_)
    split
    · split
      · exact .refl s
      · exact State.maskLinks_sound _ _ s
    · exact .refl s
  | clearErrorLog l p =>
    rw [exec_clearErrorLog] at h
    refine State.take_sound h (State.plainDirective_sound ?_)
    split
    · exact State.clearLogs_sound _ _ s
    split
    · exact State.clearLogs_sound _ _ s
    split
    · exact State.clearLogs_sound _ _ s
    · exact .refl s
  | injectErrorFrameStore l p =>
    rw [exec_injectErrorFrameStore] at h
    exact State.take_sound h (State.directive_sound (State.injectDirective_sound State.armFrame_sound _ _ p s))
  | injectErrorTableStore l p =>
    rw [exec_injectErrorTableStore] at h
    exact State.take_sound h (State.directive_sound (State.injectDirective_sound State.armTable_sound _ _ p s))
  | lock l p =>
    rw [exec_lock] at h
    refine State.take_sound h (State.plainDirective_sound ?_)
    split
    · exact State.lockDirective_sound _ s
    · exact .refl s
  | sensorWrite l p =>
    rw [exec_sensorWrite] at h
    exact State.take_sound h (State.sidesDirective_sound fun xs => State.writeSides_sound _ _ xs s)
  | restartSide l p =>
    rw [exec_restartSide] at h
    exact State.take_sound h (State.sidesDirective_sound fun xs => .forSides (fun s x => State.restartSide_sound s x) xs s)
  | powerOnReset =>
    rw [exec_powerOnReset] at h
    cases h
    exact State.powerOn_sound s
  | resetInputAsserted =>
    rw [exec_resetInputAsserted] at h
    cases h
    exact State.resetAsserted_sound s

theorem State.idle_sound (s : State) : s.Sound s.idle := by
  unfold State.idle
  split
  · exact .refl s
  split
  · exact .of_eq rfl rfl rfl rfl
  · exact .of_eq rfl rfl rfl rfl

theorem step_sound {s t : State} (h : step s = .next t) : s.Sound t := by
  cases hp : s.pending with
  | nil =>
    rw [step_of_empty hp] at h
    cases h
    exact State.idle_sound s
  | cons i rest =>
    rw [step_of_cons hp] at h
    have hrest : s.Sound { s with pending := rest } := .of_eq rfl rfl rfl rfl
    exact hrest.trans (exec_sound i _ t h)

/-- Settles O8: the slot laws are a part of what every step keeps, `step_sound`. -/
theorem everyStepKeepsTheSlotLaws : Obligations.EveryStepKeepsTheSlotLaws :=
  fun _ _ hs h x => ((step_sound h).side x).slots (hs x)

/-- Settles O13: the ranges, the record sums and the laws of the table store are parts of what every step keeps, `step_sound`. -/
theorem everyStepKeepsTheRanges : Obligations.EveryStepKeepsTheRanges :=
  ⟨fun _ _ ⟨hc, hp⟩ h => ⟨fun x => ((step_sound h).side x).counts (hc x), (step_sound h).part hp⟩,
    fun _ _ hr h x => ((step_sound h).side x).records (hr x),
    fun _ _ ht h => (step_sound h).store.tables ht,
    fun _ _ ht hg h => (step_sound h).store.glare ht hg,
    fun _ _ ht hp h => (step_sound h).store.pool ht hp⟩

end Sys2Proof.Machine
end

section
/-! DEFECT_ADD and DEFECT_REMOVE (R56, R57, R164, R167 to R169). -/

namespace Sys2Proof.Machine

variable {s t : State} {x y l : Side} {k : EditKind} {sites : List DefectEntry} {p : Packet} {xs : List Side}

/-! ## The defect-loss flag (R164, R168) -/

/-- What an accepted edit directive makes of the loss of a side (R168). -/
structure State.ClearsLoss (s t : State) (x : Side) : Prop where
  loss : (t.side x).tables.defectLoss = false
  count : (t.side x).tables.defectCount = (s.side x).tables.defectCount
  ends : (s.side x).tables.defectLoss = true ∧ (s.side x).tables.poisonCond = true ∧
      (∀ tb, ((s.side x).tables.ctl.get tb).bad ((s.side x).tables.ctl.get tb).active = none) →
    (t.side x).tables.poisonCond = false ∧ (t.faults.get (.side .tablePoisoned x)).state = .clear
  keeps : ¬ ((s.side x).tables.defectLoss = true ∧ (s.side x).tables.poisonCond = true ∧
      ∀ tb, ((s.side x).tables.ctl.get tb).bad ((s.side x).tables.ctl.get tb).active = none) → s.KeepsPoison t x

theorem State.clearDefectLoss_clears (s : State) (x : Side) : s.ClearsLoss (s.clearDefectLoss x) x := by
  cases hl : (s.side x).tables.defectLoss with
  | false =>
    have heq : s.clearDefectLoss x = s := by simp [State.clearDefectLoss, hl]
    rw [heq]
    exact ⟨hl, rfl, fun h => absurd h.1 (by simp [hl]), fun _ => ⟨rfl, rfl⟩⟩
  | true =>
    have heq : s.clearDefectLoss x =
        (s.onSide x (fun d => { d with tables := { d.tables with defectLoss := false } })).endPoisonIfHealed x := by
      simp [State.clearDefectLoss, hl]
    rw [heq]
    by_cases h : (s.side x).tables.poisonCond = true ∧
        ∀ tb, ((s.side x).tables.ctl.get tb).bad ((s.side x).tables.ctl.get tb).active = none
    · rw [State.endPoisonIfHealed_of_healed (by simpa [SideTables.Healed] using h)]
      exact ⟨by simp, by simp, fun _ => by simp, fun g => absurd ⟨hl, h⟩ g⟩
    · rw [State.endPoisonIfHealed_of_not (by simpa [SideTables.Healed] using h)]
      exact ⟨by simp, by simp, fun g => absurd g.2 h, fun _ => by simp [State.KeepsPoison]⟩

theorem State.clearDefectLoss_tableStore (s : State) (x : Side) : (s.clearDefectLoss x).tableStore = s.tableStore := by
  unfold State.clearDefectLoss
  split <;> simp

/-- A list that is stored without error is read as it stands (R169). -/
theorem State.StoresList.readList {es : List DefectEntry} (h : s.StoresList x es) : s.readList x [] = (es, s) := by
  have hread : (State.readEntries x (List.range (s.side x).tables.defectCount) s).1 = es :=
    (State.readEntries_reads x _ List.nodup_range s h.quiet).1.trans h.entriesRead
  have hkeep : (State.readEntries x (List.range (s.side x).tables.defectCount) s).2 = s :=
    h.readEntries _ fun i hi => by rw [h.2.1] at hi; exact List.mem_range.mp hi
  have hlen : ¬ (es.length < (s.side x).tables.defectCount ∨ ([] : List DefectEdit) ≠ []) := by simp [h.2.1]
  unfold State.readList
  dsimp only
  rw [hread, hkeep, if_neg hlen]
  rfl

/-! ## One side (R167 to R169) -/

/-- The reply words of a side: the number accepted, whether a site is refused, and the index of the first (R168). -/
def judgeWords (j : List DefectEdit × Option Nat) : List Word := [wordOf j.1.length, wordOfBool j.2.isSome, wordOf (j.2.getD 0)]

theorem judgeWords_none (j : List DefectEdit × Option Nat) : (judgeWords j)[1]? = some 0 ↔ j.2 = none := by
  obtain ⟨edits, _ | n⟩ := j <;> simp [judgeWords, wordOfBool]

/-- The edits of a side with more at the end. -/
def SideState.edited (d : SideState) (new : List DefectEdit) : SideState := { d with dev := { d.dev with edits := d.dev.edits ++ new } }

theorem State.onSide_edited {old : List DefectEdit} (he : (s.side x).dev.edits = old) (new : List DefectEdit) :
    s.onSide x (fun d => d.edited new) =
      { s with sides := s.sides.set x { s.side x with dev := { (s.side x).dev with edits := old ++ new } } } := by
  subst he
  rfl

/-- What an edit directive may do for a side, with the edits and the index that it answers. -/
structure State.Edits (s t : State) (x : Side) (j : List DefectEdit × Option Nat) : Prop where
  edits : (t.side x).dev.edits = (s.side x).dev.edits ++ j.1
  other : t.side x.other = s.side x.other
  frameStore : t.frameStore = s.frameStore
  locks : t.locks = s.locks
  replies : ∀ l, (t.link l).replies = (s.link l).replies
  poison : t.faults.get (.side .tablePoisoned x.other) = s.faults.get (.side .tablePoisoned x.other)

theorem State.editSide_edits (k : EditKind) (sites : List DefectEntry) (x : Side) (s : State) : ∃ share list,
    (State.editSide k sites x s).1 = judgeWords (k.judge share 0 (s.side x).dev.edits.length list sites) ∧
      s.Edits (State.editSide k sites x s).2 x (k.judge share 0 (s.side x).dev.edits.length list sites) := by
  have h := (State.clearDefectLoss_frame s x).trans (State.readList_frame (s.clearDefectLoss x) x [])
  unfold State.editSide
  dsimp only
  rw [h.dev]
  refine ⟨_, _, rfl, by simp [h.dev], by simp [h.other], ?_, ?_, fun l => ?_, ?_⟩
  · exact h.frameStore
  · exact h.locks
  · exact h.link_replies l
  · exact h.faults _ (by simp) (by cases x <;> simp [Side.other])

/-- Where its list is stored without error, a side's sites are judged against it, and its loss is cleared. -/
theorem State.editSide_stored {es : List DefectEntry} (h : s.StoresList x es) :
    (State.editSide k sites x s).1 = judgeWords (k.judge (s.shareOf x) 0 (s.side x).dev.edits.length
        (applyEdits es (s.side x).dev.edits) sites) ∧
      (State.editSide k sites x s).2 = (s.clearDefectLoss x).onSide x (fun d => d.edited
        (k.judge (s.shareOf x) 0 (s.side x).dev.edits.length (applyEdits es (s.side x).dev.edits) sites).1) := by
  have hstore := State.clearDefectLoss_tableStore s x
  have hcount := (State.clearDefectLoss_clears s x).count
  have hlist : (s.clearDefectLoss x).StoresList x es := by
    unfold State.StoresList State.HoldsList at h ⊢
    rwa [hstore, hcount]
  have hshare : (s.clearDefectLoss x).shareOf x = s.shareOf x := by
    cases x <;> simp only [State.shareOf, hstore]
  have hdev := (State.clearDefectLoss_frame s x).dev
  unfold State.editSide
  dsimp only
  rw [hlist.readList]
  dsimp only
  rw [hdev, hshare]
  exact ⟨rfl, rfl⟩

/-- On a side with an empty list and no lost entry the sites are judged alone. -/
theorem State.editSide_empty (hc : (s.side x).tables.defectCount = 0) (hl : (s.side x).tables.defectLoss = false) :
    State.editSide k sites x s =
      (judgeWords (k.judge (s.shareOf x) 0 (s.side x).dev.edits.length (applyEdits [] (s.side x).dev.edits) sites),
        s.onSide x (fun d => d.edited
          (k.judge (s.shareOf x) 0 (s.side x).dev.edits.length (applyEdits [] (s.side x).dev.edits) sites).1)) := by
  have heq : s.clearDefectLoss x = s := by simp [State.clearDefectLoss, hl]
  unfold State.editSide
  dsimp only
  rw [heq, State.readList_empty s x hc]
  rfl

/-! ## The sides named -/

/-- What an edit directive leaves alone. -/
structure State.EditFrame (s t : State) (xs : List Side) : Prop where
  side : ∀ y, y ∉ xs → t.side y = s.side y
  poison : ∀ y, y ∉ xs → t.faults.get (.side .tablePoisoned y) = s.faults.get (.side .tablePoisoned y)
  frameStore : t.frameStore = s.frameStore
  locks : t.locks = s.locks
  replies : ∀ l, (t.link l).replies = (s.link l).replies

theorem State.editSides_frame (k : EditKind) (sites : List DefectEntry) (xs : List Side) (s : State) :
    s.EditFrame (State.editSides k sites xs s).2 xs := by
  induction xs generalizing s with
  | nil => exact ⟨fun _ _ => rfl, fun _ _ => rfl, rfl, rfl, fun _ => rfl⟩
  | cons x xs ih =>
    obtain ⟨_, _, -, h⟩ := State.editSide_edits k sites x s
    have g := ih (State.editSide k sites x s).2
    have other : ∀ y, y ∉ x :: xs → y = x.other ∧ y ∉ xs := fun y hy => by
      rw [List.mem_cons, not_or] at hy
      exact ⟨(Side.eq_or_eq_other x y).resolve_left hy.1, hy.2⟩
    refine ⟨fun y hy => ?_, fun y hy => ?_, g.frameStore.trans h.frameStore, g.locks.trans h.locks,
      fun l => (g.replies l).trans (h.replies l)⟩
    · obtain ⟨rfl, hy⟩ := other y hy
      exact (g.side _ hy).trans h.other
    · obtain ⟨rfl, hy⟩ := other y hy
      exact (g.poison _ hy).trans h.poison

theorem State.editSide_length (k : EditKind) (sites : List DefectEntry) (x : Side) (s : State) :
    (State.editSide k sites x s).1.length = 3 := rfl

theorem State.editSides_length (k : EditKind) (sites : List DefectEntry) (xs : List Side) (s : State) :
    (State.editSides k sites xs s).1.length = 3 * xs.length := by
  induction xs generalizing s with
  | nil => rfl
  | cons x xs ih =>
    simp only [State.editSides, List.length_append, State.editSide_length, ih, List.length_cons]
    omega

/-- What an edit directive does for side `x`, the one with index `i` of those named: it does so from a state `u` in which that side and its
record TABLE_POISONED are as they were, and the sides after it leave that so. -/
structure State.EditsAt (s : State) (k : EditKind) (sites : List DefectEntry) (xs : List Side) (i : Nat) (x : Side) (u : State) :
    Prop where
  before : u.side x = s.side x
  poisonBefore : u.faults.get (.side .tablePoisoned x) = s.faults.get (.side .tablePoisoned x)
  after : (State.editSides k sites xs s).2.side x = (State.editSide k sites x u).2.side x
  poisonAfter : (State.editSides k sites xs s).2.faults.get (.side .tablePoisoned x) =
    (State.editSide k sites x u).2.faults.get (.side .tablePoisoned x)
  words : ∀ m, m < 3 → (State.editSides k sites xs s).1[3 * i + m]? = (State.editSide k sites x u).1[m]?
  stored : ∀ es : Side → List DefectEntry, (∀ y ∈ xs, s.StoresList y (es y)) → u.tableStore = s.tableStore

theorem State.editSides_at (k : EditKind) (sites : List DefectEntry) (hn : xs.Nodup) {i : Nat} (hi : xs[i]? = some x) (s : State) :
    ∃ u, s.EditsAt k sites xs i x u := by
  induction xs generalizing s i with
  | nil => cases hi
  | cons z zs ih =>
    obtain ⟨hz, hzs⟩ := List.nodup_cons.mp hn
    have rest := State.editSides_frame k sites zs (State.editSide k sites z s).2
    cases i with
    | zero =>
      have hzx : z = x := Option.some.inj hi
      subst hzx
      refine ⟨s, rfl, rfl, rest.side z hz, rest.poison z hz, fun m hm => ?_, fun _ _ => rfl⟩
      rw [Nat.mul_zero, Nat.zero_add]
      exact List.getElem?_append_left (by rwa [State.editSide_length])
    | succ i =>
      have hx : zs[i]? = some x := hi
      obtain ⟨u, hu⟩ := ih hzs hx (State.editSide k sites z s).2
      obtain ⟨_, _, -, first⟩ := State.editSide_edits k sites z s
      have other : ∀ y ∈ zs, y = z.other := fun y hy => (Side.eq_or_eq_other z y).resolve_left fun he => hz (he ▸ hy)
      have hxz : x = z.other := other x (List.mem_of_getElem? hx)
      refine ⟨u, ?_, ?_, hu.after, hu.poisonAfter, fun m hm => ?_, fun es hes => ?_⟩
      · rw [hu.before, hxz, first.other]
      · rw [hu.poisonBefore, hxz, first.poison]
      · rw [← hu.words m hm, State.editSides]
        dsimp only
        rw [List.getElem?_append_right (by rw [State.editSide_length]; omega), State.editSide_length]
        congr 1
        omega
      · have hstore : (State.editSide k sites z s).2.tableStore = s.tableStore := by
          rw [(State.editSide_stored (hes z List.mem_cons_self)).2]
          exact State.clearDefectLoss_tableStore s z
        refine (hu.stored es fun y hy => ?_).trans hstore
        refine (State.storesList_congr hstore ?_ _).mpr (hes y (List.mem_cons_of_mem _ hy))
        rw [other y hy, first.other]

/-! ## The directive (R56, R167, R168) -/

/-- The form that an edit directive asks of its sites. -/
structure EditKind.Form (k : EditKind) (p : Packet) : Prop where
  pos : 1 ≤ p.s0.toNat
  le : p.s0.toNat ≤ 16
  length : p.args.length = 2 * p.s0.toNat
  classes : k = .add → ∀ e ∈ sitesOf p.args, e.cls ≠ 3

theorem EditKind.Form.count (h : k.Form p) : (sitesOf p.args).length = p.s0.toNat := by
  rw [sitesOf_length, h.length]
  omega

theorem State.editDirective_of_form (h : k.Form p) (hx : sidesField p.side = some xs) (s : State) :
    State.editDirective k p s = if s.locks.defects then (.refused .locked [], s)
      else (.done (State.editSides k (sitesOf p.args) xs s).1, (State.editSides k (sitesOf p.args) xs s).2) := by
  have h0 : p.s0 ≠ 0 := fun h0 => by have := h.pos; rw [h0] at this; exact absurd this (by decide)
  have hle := h.le
  have hform : ¬ (p.s0 = 0 ∨ 16 < p.s0.toNat ∨ p.args.length ≠ 2 * p.s0.toNat ∨
      (k = .add ∧ (sitesOf p.args).any (fun e => decide (e.cls = 3)) = true)) := by
    rintro (g | g | g | ⟨hk, g⟩)
    · exact h0 g
    · omega
    · exact g h.length
    · obtain ⟨e, he, hc⟩ := List.any_eq_true.mp g
      exact h.classes hk e he (of_decide_eq_true hc)
  unfold State.editDirective
  dsimp only
  rw [hx]
  exact if_neg hform

/-- A form that the directive refuses is refused whatever the checks before it find: they refuse with the same reason. -/
theorem State.editDirective_refused (hform : p.s0 = 0 ∨ 16 < p.s0.toNat ∨ p.args.length ≠ 2 * p.s0.toNat ∨
    (k = .add ∧ (sitesOf p.args).any (fun e => decide (e.cls = 3)) = true)) (ha : s.Admits l) :
    s.directive l p (State.editDirective k p) = s.Answered l p.tag (some .badArgument) [] := by
  have hbody : State.editDirective k p s = (.refused .badArgument [], s) := by
    unfold State.editDirective
    dsimp only
    split
    · exact if_pos hform
    · rfl
  rw [State.directive, State.admit_eq s l p.tag _ ha]
  split
  · rfl
  · rw [hbody]; rfl

section

variable (ha : s.Admits l) (hp : p.Sized) (hx : sidesField p.side = some xs) (h : k.Form p)
include ha hp hx h

theorem State.edit_locked (hd : s.locks.defects = true) :
    s.directive l p (State.editDirective k p) = s.Answered l p.tag (some .locked) [] := by
  rw [State.directive_eq s l p _ ha hp, State.editDirective_of_form h hx, if_pos hd, State.respond_refused]

theorem State.edit_eq (hd : s.locks.defects = false) :
    s.directive l p (State.editDirective k p) =
      (State.editSides k (sitesOf p.args) xs s).2.Answered l p.tag none (State.editSides k (sitesOf p.args) xs s).1 := by
  rw [State.directive_eq s l p _ ha hp, State.editDirective_of_form h hx, if_neg (by simp [hd]), State.respond_done]

end

/-- The edits that a directive appends to those of a side (R56, R167, R168). -/
theorem State.editSides_appends (h : k.Form p) (hx : sidesField p.side = some xs) (s : State) {i : Nat} (hi : xs[i]? = some x) :
    ∃ new, ((State.editSides k (sitesOf p.args) xs s).2.side x).dev.edits = (s.side x).dev.edits ++ new ∧
      new.length ≤ p.s0.toNat ∧
      ((s.side x).dev.edits.length ≤ 64 → ((State.editSides k (sitesOf p.args) xs s).2.side x).dev.edits.length ≤ 64) ∧
      (State.editSides k (sitesOf p.args) xs s).1[3 * i]? = some (BitVec.ofNat 16 new.length) ∧
      (new.length = p.s0.toNat ↔ (State.editSides k (sitesOf p.args) xs s).1[3 * i + 1]? = some 0) ∧
      ∀ d ∈ new, ∃ e ∈ sitesOf p.args, d = k.edit e ∧ OnSensor e.row e.col := by
  obtain ⟨u, hu⟩ := State.editSides_at k (sitesOf p.args) (sidesField_nodup hx) hi s
  obtain ⟨share, list, hwords, hedits⟩ := State.editSide_edits k (sitesOf p.args) x u
  have hcount := EditKind.judge_count k share 0 (u.side x).dev.edits.length list (sitesOf p.args)
  rw [h.count] at hcount
  have edits := hedits.edits
  rw [← hu.after] at edits
  refine ⟨_, edits.trans (by rw [hu.before]), hcount.1, fun hle => ?_, ?_, hcount.2.trans ?_, fun d hd => EditKind.mem_judge hd⟩
  · rw [edits, List.length_append]
    exact EditKind.judge_length k share 0 _ list _ (hu.before ▸ hle)
  · refine (hu.words 0 (by omega)).trans ?_
    rw [hwords]
    rfl
  · rw [hu.words 1 (by omega), hwords, judgeWords_none]

/-- The judgement of the sites of a side whose list is stored without error, site by site, with the words that report it (R167, R168). -/
theorem State.editSides_judges (h : k.Form p) (hx : sidesField p.side = some xs) (s : State) {i : Nat} (hi : xs[i]? = some x)
    {es : Side → List DefectEntry} (hes : ∀ y ∈ xs, s.StoresList y (es y)) :
    ∃ accepted : Nat → Bool,
      (∀ m e held list, (sitesOf p.args)[m]? = some e →
        held = (s.side x).dev.edits ++
          (((sitesOf p.args).take m).zipIdx.filter (fun q => accepted q.2)).map (fun q => k.edit q.1) →
        list = applyEdits (es x) held →
        accepted m = k.accepts (s.shareOf x) held.length list e) ∧
      ((State.editSides k (sitesOf p.args) xs s).2.side x).dev.edits = (s.side x).dev.edits ++
        ((sitesOf p.args).zipIdx.filter (fun q => accepted q.2)).map (fun q => k.edit q.1) ∧
      (∀ m, m < p.s0.toNat → accepted m = false → (∀ n, n < m → accepted n = true) →
        (State.editSides k (sitesOf p.args) xs s).1[3 * i + 1]? = some 1 ∧
        (State.editSides k (sitesOf p.args) xs s).1[3 * i + 2]? = some (BitVec.ofNat 16 m)) ∧
      ((∀ m, m < p.s0.toNat → accepted m = true) →
        (State.editSides k (sitesOf p.args) xs s).1[3 * i + 1]? = some 0 ∧
        (State.editSides k (sitesOf p.args) xs s).1[3 * i + 2]? = some 0) ∧
      s.ClearsLoss (State.editSides k (sitesOf p.args) xs s).2 x := by
  obtain ⟨u, hu⟩ := State.editSides_at k (sitesOf p.args) (sidesField_nodup hx) hi s
  have hstore := hu.stored es hes
  have husl : u.StoresList x (es x) :=
    (State.storesList_congr hstore (congrArg SideState.tables hu.before) _).mpr (hes x (List.mem_of_getElem? hi))
  have hshare : u.shareOf x = s.shareOf x := by cases x <;> simp only [State.shareOf, hstore]
  obtain ⟨hwords, hstate⟩ := State.editSide_stored (k := k) (sites := sitesOf p.args) husl
  rw [hshare, hu.before] at hwords hstate
  have hdev : ((u.clearDefectLoss x).side x).dev = (s.side x).dev := by
    rw [(State.clearDefectLoss_frame u x).dev, hu.before]
  have hall := EditKind.judge_take k (s.shareOf x) (s.side x).dev.edits.length (applyEdits (es x) (s.side x).dev.edits)
    (sitesOf p.args) _ (Nat.le_refl _)
  rw [List.take_length, h.count] at hall
  refine ⟨k.verdict (s.shareOf x) (s.side x).dev.edits.length (applyEdits (es x) (s.side x).dev.edits) (sitesOf p.args),
    fun m e held list he hheld hlist => ?_, ?_, fun m hm hr hb => ?_, fun hb => ?_, ?_⟩
  · have hm : m ≤ (sitesOf p.args).length := Nat.le_of_lt (List.getElem?_eq_some_iff.mp he).1
    have hj := congrArg Prod.fst (EditKind.judge_take k (s.shareOf x) (s.side x).dev.edits.length
      (applyEdits (es x) (s.side x).dev.edits) (sitesOf p.args) m hm)
    dsimp only at hj
    rw [← hj] at hheld
    rw [EditKind.verdict, he, hlist, hheld, List.length_append, applyEdits, applyEdits, applyEdits, List.foldl_append]
    rfl
  · rw [hu.after, hstate, State.onSide_side, SideState.edited, hdev, hall]
  · have hfind : (List.range p.s0.toNat).find? (fun m => !k.verdict (s.shareOf x) (s.side x).dev.edits.length
        (applyEdits (es x) (s.side x).dev.edits) (sitesOf p.args) m) = some m :=
      List.find?_range_eq_some.mpr ⟨by simp [hr], List.mem_range.mpr hm, fun n hn => by simp [hb n hn]⟩
    rw [hu.words 1 (by omega), hu.words 2 (by omega), hwords, hall, hfind]
    exact ⟨rfl, rfl⟩
  · have hfind : (List.range p.s0.toNat).find? (fun m => !k.verdict (s.shareOf x) (s.side x).dev.edits.length
        (applyEdits (es x) (s.side x).dev.edits) (sitesOf p.args) m) = none :=
      List.find?_eq_none.mpr fun m hm => by simp [hb m (List.mem_range.mp hm)]
    rw [hu.words 1 (by omega), hu.words 2 (by omega), hwords, hall, hfind]
    exact ⟨rfl, rfl⟩
  · have hclear := State.clearDefectLoss_clears u x
    have htab : ((State.editSides k (sitesOf p.args) xs s).2.side x).tables = ((u.clearDefectLoss x).side x).tables := by
      rw [hu.after, hstate, State.onSide_side]
      rfl
    have hrec : (State.editSides k (sitesOf p.args) xs s).2.faults.get (.side .tablePoisoned x) =
        (u.clearDefectLoss x).faults.get (.side .tablePoisoned x) := by
      rw [hu.poisonAfter, hstate, State.onSide_faults]
    obtain ⟨hloss, hcount, hends, hkeeps⟩ := hclear
    rw [hu.before] at hcount hends hkeeps
    rw [State.KeepsPoison, hu.before, hu.poisonBefore] at hkeeps
    exact ⟨by rw [htab, hloss], by rw [htab, hcount], fun g => by rw [htab, hrec]; exact hends g,
      fun g => by rw [State.KeepsPoison, htab, hrec]; exact hkeeps g⟩

/-- One side with an empty list and no lost entry (R167, R168). -/
theorem State.editSides_empty (hc : (s.side x).tables.defectCount = 0) (hl : (s.side x).tables.defectLoss = false)
    {new : List DefectEdit} {refused : Option Nat}
    (hj : k.judge (s.shareOf x) 0 (s.side x).dev.edits.length (applyEdits [] (s.side x).dev.edits) sites = (new, refused)) :
    State.editSides k sites [x] s = (judgeWords (new, refused), s.onSide x (fun d => d.edited new)) := by
  simp only [State.editSides, State.editSide_empty hc hl, hj, List.append_nil]

/-- Settles O48: the sites are judged one after another (`EditKind.judge_take`) for each side named (`State.editSides_at`). -/
theorem defectAddAppendsTheAcceptedSites : Obligations.DefectAddAppendsTheAcceptedSites := by
  refine ⟨fun l xs p s ha hp hx h1 h16 hlen hcls => ?_, fun l p s ha hform => ?_⟩
  · have hs : EditKind.add.Form p := ⟨h1, h16, hlen, fun _ => hcls⟩
    rw [exec_defectAdd, State.take_eq _ _ ha.1]
    refine ⟨fun hd => by rw [State.edit_locked ha hp hx hs hd], fun hd => ?_, fun hd x e hone hsite hr hc h0 hl he hpos => ?_,
      fun hd es hes => ?_, fun es out row col cls hes hout => ?_⟩
    · have frame := State.editSides_frame .add (sitesOf p.args) xs s
      refine ⟨_, (State.editSides .add (sitesOf p.args) xs s).1, congrArg Host.Outcome.next (State.edit_eq ha hp hx hs hd), ?_,
        State.editSides_length .., fun i x hi => ?_, frame.side, frame.frameStore, frame.locks⟩
      · simp [Link.Queued, frame.replies]
      · exact State.editSides_appends hs hx s hi
    · have hj : EditKind.add.judge (s.shareOf x) 0 (s.side x).dev.edits.length (applyEdits [] (s.side x).dev.edits) (sitesOf p.args) =
          ([.add e.row e.col e.cls], none) := by
        have hacc : EditKind.add.accepts (s.shareOf x) 0 [] e = true := EditKind.accepts_add.mpr ⟨hr, hc, by decide, .inr hpos⟩
        rw [hsite, he]
        simp [EditKind.judge, applyEdits, hacc, EditKind.edit]
      rw [State.edit_eq ha hp hx hs hd, hone, State.editSides_empty h0 hl hj, State.onSide_edited he]
      rfl
    · refine ⟨_, (State.editSides .add (sitesOf p.args) xs s).1, congrArg Host.Outcome.next (State.edit_eq ha hp hx hs hd),
        by simp [Link.Queued], fun i x hi => ?_⟩
      obtain ⟨accepted, hacc, hedits, hfirst, hall, hloss, hcount, hends, hkeeps⟩ := State.editSides_judges hs hx s hi hes
      refine ⟨accepted, fun m e held list he hheld hlist => ?_, hedits, hfirst, hall, hloss, hcount, hends, hkeeps⟩
      rw [hacc m e held list he hheld hlist, EditKind.accepts_add]
    · subst hout
      exact ⟨addSite_ordered row col cls hes, mem_addSite_iff hes⟩
  · rw [exec_defectAdd, State.take_eq _ _ ha.1, State.editDirective_refused ?_ ha]
    obtain h | h | h | ⟨m, w, hw, hc⟩ := hform
    · exact .inl h
    · exact .inr (.inl h)
    · exact .inr (.inr (.inl h))
    · obtain ⟨e, he, hcls⟩ := sitesOf_cls hw
      exact .inr (.inr (.inr ⟨rfl, List.any_eq_true.mpr ⟨e, he, decide_eq_true (hcls.trans hc)⟩⟩))

/-- Settles O49: the sites are judged one after another (`EditKind.judge_take`) for each side named (`State.editSides_at`). -/
theorem defectRemoveAppendsTheAcceptedSites : Obligations.DefectRemoveAppendsTheAcceptedSites := by
  refine ⟨fun l xs p s ha hp hx h1 h16 hlen => ?_, fun l p s ha hform => ?_⟩
  · have hs : EditKind.remove.Form p := ⟨h1, h16, hlen, fun hk => (by cases hk)⟩
    rw [exec_defectRemove, State.take_eq _ _ ha.1]
    refine ⟨fun hd => by rw [State.edit_locked ha hp hx hs hd], fun hd => ?_, fun hd x hone h0 hl he => ?_,
      fun hd x e c hone hsite hr hc h0 hl he => ?_, fun hd es hes => ?_, fun es row col => ?_⟩
    · have frame := State.editSides_frame .remove (sitesOf p.args) xs s
      refine ⟨_, (State.editSides .remove (sitesOf p.args) xs s).1, congrArg Host.Outcome.next (State.edit_eq ha hp hx hs hd), ?_,
        State.editSides_length .., fun i x hi => ?_, frame.side, frame.frameStore, frame.locks⟩
      · simp [Link.Queued, frame.replies]
      · obtain ⟨new, hedits, hle, hroom, hcount, -, hmem⟩ := State.editSides_appends hs hx s hi
        exact ⟨new, hedits, hle, hroom, hcount, hmem⟩
    · have hne : sitesOf p.args ≠ [] := fun hnil => by
        have := hs.count
        rw [hnil, List.length_nil] at this
        omega
      have hj := EditKind.judge_remove_nil (s.shareOf x) 0 (s.side x).dev.edits.length (sitesOf p.args) hne
      have hnil : applyEdits [] (s.side x).dev.edits = [] := by rw [he]; rfl
      rw [State.edit_eq ha hp hx hs hd, hone, State.editSides_empty h0 hl (hnil ▸ hj),
        State.onSide_of_eq (by simp [SideState.edited])]
      rfl
    · have hj : EditKind.remove.judge (s.shareOf x) 0 (s.side x).dev.edits.length (applyEdits [] (s.side x).dev.edits)
          (sitesOf p.args) = ([.remove e.row e.col], none) := by
        have hacc : EditKind.remove.accepts (s.shareOf x) 1 [{ row := e.row, col := e.col, cls := c }] e = true :=
          EditKind.accepts_remove.mpr ⟨hr, hc, by decide, _, List.mem_singleton_self _, rfl, rfl⟩
        rw [hsite, he]
        simp [EditKind.judge, applyEdits, applyEdit, addSite, hacc, EditKind.edit]
      rw [State.edit_eq ha hp hx hs hd, hone, State.editSides_empty h0 hl hj, State.onSide_edited he]
      rfl
    · refine ⟨_, (State.editSides .remove (sitesOf p.args) xs s).1, congrArg Host.Outcome.next (State.edit_eq ha hp hx hs hd),
        by simp [Link.Queued], fun i x hi => ?_⟩
      obtain ⟨accepted, hacc, hedits, hfirst, hall, hloss, hcount, hends, hkeeps⟩ := State.editSides_judges hs hx s hi hes
      refine ⟨accepted, fun m e held list he hheld hlist => ?_, hedits, hfirst, hall, hloss, hcount, hends, hkeeps⟩
      rw [hacc m e held list he hheld hlist, EditKind.accepts_remove]
    · exact ⟨removeSite_sublist row col es, fun e => mem_removeSite⟩
  · rw [exec_defectRemove, State.take_eq _ _ ha.1, State.editDirective_refused ?_ ha]
    exact hform.imp_right fun h => h.imp_right .inl

end Sys2Proof.Machine
end

section
/-! The articulation record: ARTICULATION and its timer (R99, R101). -/

namespace Sys2Proof.Machine

variable {s t : State}

/-! ## The timer (R101) -/

/-- The articulation record with its stale condition set. -/
def State.articStale (s : State) : State := { s with artic := { s.artic with stale := true } }

theorem State.articulationExpiry_early (h : s.artic.stale = true ∨ ticksSince s.tick s.artic.tick < 50000) :
    s.articulationExpiry = s := by
  unfold State.articulationExpiry
  split
  · rfl
  · next hs => exact if_pos (h.resolve_left hs)

theorem State.articulationExpiry_due (hs : s.artic.stale = false) (ht : 50000 ≤ ticksSince s.tick s.artic.tick) :
    s.articulationExpiry = s.articStale.raise (.part .panInputStale) (wordOfInt s.artic.angle) := by
  unfold State.articulationExpiry
  rw [if_neg (by simp [hs]), if_neg (Nat.not_lt.mpr ht)]
  rfl

/-- Settles O27: an expiry that is due is a setting of PAN_INPUT_STALE, and a setting replaces its record alone (`State.raise_reported`). -/
theorem articulationTimerMakesTheInputStale : Obligations.ArticulationTimerMakesTheInputStale := by
  intro s hr
  rw [exec_articulationTimerExpiry, State.take_eq _ _ hr]
  refine ⟨fun h => by rw [State.articulationExpiry_early h], fun hs ht => ?_⟩
  have report := State.raise_reported s.articStale (.part .panInputStale) (wordOfInt s.artic.angle)
  rw [State.articulationExpiry_due hs ht]
  refine ⟨_, rfl, by rw [State.raise_artic]; rfl, ?_, ?_, fun i hi => report.faults i (by simpa using hi), report.link, ?_⟩
  · rw [State.raise_faults, FaultTable.get_set_self]
    exact FaultRecord.setAt_state _ _ _
  · rw [State.raise_faults, FaultTable.get_set_self, FaultRecord.setAt_detail]
    rfl
  · exact congrArg (fun u : State => { u with artic := s.artic }) report.rest

/-! ## The directive (R99) -/

/-- The articulation record renewed at the present tick. -/
def State.articRenewed (s : State) (angle : Int) : State :=
  { s with artic := { angle := clamp angle (-900) 900, tick := s.tick, stale := false } }

theorem State.setAngle_of_fresh (h : s.artic.stale = false) (angle : Int) : s.setAngle angle = s.articRenewed angle := by
  simp [State.setAngle, State.articRenewed, h]

theorem State.setAngle_of_stale (h : s.artic.stale = true) (angle : Int) :
    s.setAngle angle = (s.articRenewed angle).endFault (.part .panInputStale) := by
  simp [State.setAngle, State.articRenewed, h]

/-- Whether the record was stale or not, renewing it is at most a report on PAN_INPUT_STALE. -/
theorem State.setAngle_reported (s : State) (angle : Int) :
    (s.articRenewed angle).Reported (s.setAngle angle) [.part .panInputStale] := by
  cases h : s.artic.stale with
  | false => rw [State.setAngle_of_fresh h]; exact .refl _ _
  | true => rw [State.setAngle_of_stale h]; exact State.endFault_reported _ _

theorem State.Reported.link_replies {records : List RecordId} (h : s.Reported t records) (l : Side) :
    (t.link l).replies = (s.link l).replies := by
  have := congrArg Link.replies (h.link l); exact this

theorem exec_articulation_taken {l : Side} {p : Packet} (ha : s.Admits l) (hp : p.Plain) :
    exec (.articulation l p) s = .next
      ((s.setAngle p.s0.toInt).Answered l p.tag none [wordOfInt (clamp p.s0.toInt (-900) 900)]) := by
  rw [exec_articulation, State.take_eq _ _ ha.1, State.plainDirective_eq s l p _ ha hp]
  rfl

/-- Settles O53: the record is renewed, and what else may happen is the end of PAN_INPUT_STALE (`State.setAngle_reported`). -/
theorem articulationRenewsTheRecord : Obligations.ArticulationRenewsTheRecord := by
  intro l p s ha hp
  have report := State.setAngle_reported s p.s0.toInt
  refine ⟨_, exec_articulation_taken ha hp, ?_, fun h => ?_, fun h => ?_, fun i hi => report.faults i (by simpa using hi), ?_, ?_⟩
  · exact congrArg State.artic report.rest
  · rw [State.Answered_faults, State.setAngle_of_stale h, State.endFault_faults, FaultTable.get_set_self,
      FaultRecord.endedAt_state]
  · rw [State.Answered_faults, State.link_Answered, if_neg (Side.other_ne l), State.setAngle_of_fresh h]
    exact ⟨rfl, rfl⟩
  · rw [State.Answered_link, Link.Queued, report.link_replies]
    rfl
  · exact congrArg (fun u : State => { u with artic := s.artic }) report.rest

end Sys2Proof.Machine
end

section
/-! The end of power-on reset (R107, R116, R130, R154, R155, R189, R193, R209). -/

namespace Sys2Proof.Machine

/-- After power-on reset the table store's words are the ROM defaults (R154, R155). -/
theorem State.powerOn_table (s : State) (x : Side) (tb : TableId) (p : PhysBank) (j : Nat) (hj : j < tb.words) :
    Mem.read tableDefault s.powerOn.tableStore.mem (tableAddr x tb p j) = encodeWord 22 ((romTable x tb).getD j 0) :=
  tableDefault_bank x tb p j hj

/-- Settles O4: the state is `State.reset` but for what the model keeps, and an empty table store reads as the ROM defaults. -/
theorem powerOnResetRestoresThePowerOnValues : Obligations.PowerOnResetRestoresThePowerOnValues := by
  intro s
  have hside : ∀ x, s.powerOn.side x = SideState.reset := State.reset_side
  have hlink : ∀ l, s.powerOn.link l = Link.reset := State.reset_link
  have hfault : ∀ i, s.powerOn.faults.get i = FaultRecord.reset := FaultTable.reset_get
  refine ⟨s.powerOn, exec_powerOnReset s, rfl, rfl, rfl, rfl, hside, hlink, hfault, s.powerOn_table, ?_⟩
  and_intros <;> rfl

end Sys2Proof.Machine
end

section
/-! The content checks of COMMIT stand for the rules of the tables one by one, in the same order (R97, R160). -/

namespace Sys2Proof.Machine

/-- The check stands for a rule on these words: it names the rule's word, and passes where the rule holds. -/
structure ContentCheck.Decides (ws : List Word) (c : ContentCheck) (q : ContentRule) : Prop where
  index : c.index = q.1
  passes : c.passes ws = true ↔ q.2

section

variable (ws : List Word)

theorem inRange_decides (j lo hi : Nat) : (inRange j lo hi).Decides ws (j, lo ≤ numAt ws j ∧ numAt ws j ≤ hi) :=
  ⟨rfl, by simp [inRange]⟩

theorem inRange_zero_decides (j hi : Nat) : (inRange j 0 hi).Decides ws (j, numAt ws j ≤ hi) :=
  ⟨rfl, by simp [inRange]⟩

theorem inRangeSigned_decides (j : Nat) (lo hi : Int) :
    (inRangeSigned j lo hi).Decides ws (j, lo ≤ intAt ws j ∧ intAt ws j ≤ hi) := ⟨rfl, by simp [inRangeSigned]⟩

theorem nodeCheck_decides (top j : Nat) :
    (nodeCheck top j).Decides ws (j, numAt ws j ≤ top ∧ (1 ≤ j → numAt ws (j - 1) ≤ numAt ws j)) := by
  refine ⟨rfl, ?_⟩
  simp only [nodeCheck, Bool.and_eq_true, Bool.or_eq_true, decide_eq_true_eq, Nat.one_le_iff_ne_zero, or_iff_not_imp_left, ne_eq]

theorem markerCheck_decides (m : Nat) : (markerCheck m).Decides ws (21, m < numAt ws 21 →
    ((ws.getD (23 + 2 * m) 0).extractLsb' 8 2).toNat ≤ 1 ∧ numAt ws (22 + 2 * m) ≤ 1279 ∧
      1 ≤ ((ws.getD (23 + 2 * m) 0).extractLsb' 4 3).toNat ∧ ((ws.getD (23 + 2 * m) 0).extractLsb' 4 3).toNat ≤ 4) := by
  refine ⟨rfl, ?_⟩
  simp only [markerCheck, Bool.and_eq_true, Bool.or_eq_true, decide_eq_true_eq, and_assoc, or_iff_not_imp_left, Nat.not_le]

theorem layoutChecks_decide : List.Forall₂ (ContentCheck.Decides ws) layoutChecks (TableKind.layout.rules ws) := by
  refine List.rel_append (List.rel_append ?_ ?_) ?_
  · exact .cons ⟨rfl, by simp [and_assoc, Nat.dvd_iff_mod_eq_zero]⟩ <| .cons ⟨rfl, Window.inGrid_iff _⟩ <|
      .cons ⟨rfl, Window.inGrid_iff _⟩ <| .cons ⟨rfl, Window.within_iff _ _⟩ <| .cons ⟨rfl, Window.within_iff _ _⟩ <|
      .cons ⟨rfl, stepsInRange_iff _ _⟩ <| .cons ⟨rfl, stepsInRange_iff _ _⟩ <| .cons ⟨rfl, by simp⟩ <| .cons ⟨rfl, by simp⟩ <|
      .cons (inRange_decides ws _ _ _) <| .cons (inRange_zero_decides ws _ _) .nil
  · rw [List.forall₂_map_left_iff, List.forall₂_map_right_iff, List.forall₂_same]
    exact fun m _ => markerCheck_decides ws m
  · exact .cons (inRange_decides ws _ _ _) <| .cons (inRange_decides ws _ _ _) <| .cons ⟨rfl, by simp⟩ <|
      .cons (inRange_decides ws _ _ _) <| .cons (inRange_decides ws _ _ _) .nil

theorem contentChecks_decide (k : TableKind) : List.Forall₂ (ContentCheck.Decides ws) (contentChecks k) (k.rules ws) := by
  cases k with
  | tone =>
    rw [contentChecks, TableKind.rules, List.forall₂_map_left_iff, List.forall₂_map_right_iff, List.forall₂_same]
    exact fun j _ => nodeCheck_decides ws 1023 j
  | pan =>
    rw [contentChecks, TableKind.rules, List.forall₂_map_left_iff, List.forall₂_map_right_iff, List.forall₂_same]
    exact fun j _ => nodeCheck_decides ws 240 j
  | layout => exact layoutChecks_decide ws
  | profile =>
    simp only [contentChecks, TableKind.rules, List.forall₂_cons, List.Forall₂.nil, and_true, inRange_decides, inRange_zero_decides,
      inRangeSigned_decides]
  | glareAtt =>
    rw [contentChecks, TableKind.rules, List.forall₂_map_left_iff, List.forall₂_map_right_iff, List.forall₂_same]
    refine fun j _ => ⟨rfl, ?_⟩
    cases j with
    | zero => simp
    | succ j => simp [and_assoc]
  | ladder =>
    simp only [contentChecks, TableKind.rules, List.forall₂_cons, List.Forall₂.nil, and_true, inRange_decides]
    exact ⟨⟨rfl, by simp⟩, rfl, by simp⟩
  | sensor =>
    simp only [contentChecks, TableKind.rules, List.forall₂_cons, List.Forall₂.nil, and_true, inRange_decides, inRange_zero_decides,
      inRangeSigned_decides]
    exact ⟨rfl, by simp [readSensor]⟩

end

section

variable {ws : List Word} {cs : List ContentCheck} {qs : List ContentRule}

/-- Where every rule holds every check passes. -/
theorem passes_of_decides (h : List.Forall₂ (ContentCheck.Decides ws) cs qs) (hq : ∀ q ∈ qs, q.2) :
    ∀ c ∈ cs, c.passes ws = true := by
  induction h with
  | nil => exact fun c hc => by cases hc
  | cons hd _ ih =>
    obtain ⟨hq, hqs⟩ := List.forall_mem_cons.mp hq
    exact List.forall_mem_cons.mpr ⟨hd.passes.mpr hq, ih hqs⟩

/-- The first rule that fails is that of the first check that fails. -/
theorem fails_of_decides {pre post : List ContentRule} {q : ContentRule}
    (h : List.Forall₂ (ContentCheck.Decides ws) cs (pre ++ q :: post)) (hpre : ∀ o ∈ pre, o.2) (hq : ¬ q.2) :
    ∃ before c after, cs = before ++ c :: after ∧ (∀ b ∈ before, b.passes ws = true) ∧ c.passes ws = false ∧ c.index = q.1 := by
  induction pre generalizing cs with
  | nil =>
    obtain ⟨c, after, hd, -, rfl⟩ := List.forall₂_cons_right_iff.mp h
    exact ⟨[], c, after, rfl, List.forall_mem_nil _, Bool.eq_false_iff.mpr fun hc => hq (hd.passes.mp hc), hd.index⟩
  | cons o pre ih =>
    obtain ⟨ho, hpre⟩ := List.forall_mem_cons.mp hpre
    obtain ⟨b, rest, hd, hrest, rfl⟩ := List.forall₂_cons_right_iff.mp h
    obtain ⟨before, c, after, rfl, hbefore, hfail, hindex⟩ := ih hrest hpre
    exact ⟨b :: before, c, after, rfl, List.forall_mem_cons.mpr ⟨hd.passes.mpr ho, hbefore⟩, hfail, hindex⟩

end

end Sys2Proof.Machine
end

section
/-! The read run of a validation, told from what the read of each word delivers (R157, R159). -/

namespace Sys2Proof.Machine

/-- The reads of the first `m` words of a bank deliver those of `content`: that of word `i` takes place in the state `run i` and leaves
`run (i + 1)`. -/
structure BankDelivers (x : Side) (tb : TableId) (p : PhysBank) (content : List Word) (run : Nat → State) (m : Nat) : Prop where
  length : m ≤ content.length
  word : ∀ i, i < m → (run i).readBankWord x tb p i = (some (content.getD i 0), run (i + 1))

namespace BankDelivers

variable {x : Side} {tb : TableId} {p : PhysBank} {content : List Word} {run : Nat → State} {m n k : Nat} {u : State}
  {c : ContentCheck} {cs before after : List ContentCheck}

theorem take_length (h : BankDelivers x tb p content run m) (hn : n ≤ m) : (content.take n).length = n :=
  List.length_take_of_le (hn.trans h.length)

theorem take_next (h : BankDelivers x tb p content run m) (hn : n < m) :
    content.take n ++ [content.getD n 0] = content.take (n + 1) := by
  have hlt : n < content.length := Nat.lt_of_lt_of_le hn h.length
  rw [List.getD_eq_getElem _ _ hlt, List.take_append_getElem hlt]

/-- A run that goes on within these words delivers them all. -/
theorem readOn (h : BankDelivers x tb p content run m) (hk : n + k ≤ m) :
    State.readOn x tb p k (content.take n) (run n) = (.ok (content.take (n + k)), run (n + k)) := by
  induction k generalizing n with
  | zero => rfl
  | succ k ih =>
    unfold State.readOn
    rw [h.take_length (by omega), h.word n (by omega)]
    dsimp only
    rw [h.take_next (by omega), ih (by omega), Nat.add_right_comm, Nat.add_assoc]

/-- A run that goes beyond them stops where the next word is uncorrectable. -/
theorem readOn_stops (h : BankDelivers x tb p content run m) (hstop : (run m).readBankWord x tb p m = (none, u)) (hn : n ≤ m)
    (hk : m < n + k) : State.readOn x tb p k (content.take n) (run n) = (.error m, u) := by
  induction k generalizing n with
  | zero => omega
  | succ k ih =>
    unfold State.readOn
    rw [h.take_length hn]
    rcases Nat.eq_or_lt_of_le hn with rfl | hlt
    · rw [hstop]
    · rw [h.word n hlt]
      dsimp only
      rw [h.take_next hlt, ih hlt (by omega)]

/-- A check that needs no more than these words is made on them. -/
theorem runChecks_cons (h : BankDelivers x tb p content run m) (hn : n ≤ m) (hc : c.needs ≤ m) (hr : c.ReadsNeeds) :
    State.runChecks x tb p (c :: cs) (content.take n) (run n) =
      if c.passes content = true then State.runChecks x tb p cs (content.take (max n c.needs)) (run (max n c.needs))
      else (.badContent tb c.index, run (max n c.needs)) := by
  have hmax : n + (c.needs - n) = max n c.needs := by omega
  have hsame : c.passes (content.take (max n c.needs)) = true ↔ c.passes content = true := hr _ _ fun j hj => by
    rw [List.getD_eq_getElem?_getD, List.getD_eq_getElem?_getD, List.getElem?_take, if_pos (by omega)]
  have hread := h.readOn (n := n) (k := c.needs - n) (by omega)
  rw [hmax] at hread
  rw [State.runChecks, h.take_length hn, hread]
  simp only [hsame]

/-- A bank whose words are all delivered passes when its checks do, and is read to its end. -/
theorem runChecks_passes (h : BankDelivers x tb p content run tb.words) (hn : n ≤ tb.words) (hfit : ∀ c ∈ cs, c.needs ≤ tb.words)
    (hreads : ∀ c ∈ cs, c.ReadsNeeds) (hpass : ∀ c ∈ cs, c.passes content = true) :
    State.runChecks x tb p cs (content.take n) (run n) = (.pass, run tb.words) := by
  induction cs generalizing n with
  | nil =>
    rw [State.runChecks, h.take_length hn, h.readOn (by omega), show n + (tb.words - n) = tb.words by omega]
  | cons c cs ih =>
    obtain ⟨hfit, hfits⟩ := List.forall_mem_cons.mp hfit
    obtain ⟨hread, hreads⟩ := List.forall_mem_cons.mp hreads
    obtain ⟨hpass, hpasses⟩ := List.forall_mem_cons.mp hpass
    rw [h.runChecks_cons hn hfit hread, if_pos hpass]
    exact ih (by omega) hfits hreads hpasses

/-- The first check that fails refuses the bank with its index. -/
theorem runChecks_fails (h : BankDelivers x tb p content run tb.words) (hn : n ≤ tb.words)
    (hfit : ∀ b ∈ before ++ c :: after, b.needs ≤ tb.words) (hreads : ∀ b ∈ before ++ c :: after, b.ReadsNeeds)
    (hbefore : ∀ b ∈ before, b.passes content = true) (hc : c.passes content = false) :
    ∃ i, State.runChecks x tb p (before ++ c :: after) (content.take n) (run n) = (.badContent tb c.index, run i) := by
  induction before generalizing n with
  | nil =>
    exact ⟨_, (h.runChecks_cons hn (hfit c List.mem_cons_self) (hreads c List.mem_cons_self)).trans (if_neg (by simp [hc]))⟩
  | cons b before ih =>
    obtain ⟨hfit, hfits⟩ := List.forall_mem_cons.mp hfit
    obtain ⟨hread, hreads⟩ := List.forall_mem_cons.mp hreads
    obtain ⟨hpass, hpasses⟩ := List.forall_mem_cons.mp hbefore
    obtain ⟨i, hi⟩ := ih (n := max n b.needs) (by omega) hfits hreads hpasses
    exact ⟨i, ((h.runChecks_cons hn hfit hread).trans (if_pos hpass)).trans hi⟩

/-- Where no check fails on the words delivered before it, the first uncorrectable word refuses the bank. -/
theorem runChecks_stops (h : BankDelivers x tb p content run m) (hm : m < tb.words)
    (hstop : (run m).readBankWord x tb p m = (none, u)) (hn : n ≤ m) (hreads : ∀ c ∈ cs, c.ReadsNeeds)
    (hpass : ∀ c ∈ cs, c.passes content = true) :
    State.runChecks x tb p cs (content.take n) (run n) = (.tableError tb m, u) := by
  induction cs generalizing n with
  | nil => rw [State.runChecks, h.take_length hn, h.readOn_stops hstop hn (by omega)]
  | cons c cs ih =>
    obtain ⟨hread, hreads⟩ := List.forall_mem_cons.mp hreads
    obtain ⟨hpass, hpasses⟩ := List.forall_mem_cons.mp hpass
    by_cases hc : c.needs ≤ m
    · rw [h.runChecks_cons hn hc hread, if_pos hpass]
      exact ih (by omega) hreads hpasses
    · rw [State.runChecks, h.take_length hn, h.readOn_stops hstop hn (by omega)]

end BankDelivers

end Sys2Proof.Machine
end

section
/-! One read of the table store: of a word stored without error, and of one that reads with an error (R156, R171, R172). -/

namespace Sys2Proof.Machine

variable {s : State} {x : Side} {tb : TableId} {p : PhysBank} {j a y : Nat} {w v : BitVec 22}

/-- A word stored without error, which no injection hits, is read as it stands. -/
theorem State.readTableWord_stored {d : Word} (hi : takeInjection s.tableStore.injection a = (none, s.tableStore.injection))
    (hw : Mem.read tableDefault s.tableStore.mem a = encodeWord 22 d) : s.readTableWord x a = (some d, s) := by
  simp [State.readTableWord, hi, hw, asRead, checkWord_encodeWord, dataOf_encodeWord]

theorem State.readBankWord_stored {d : Word}
    (hi : takeInjection s.tableStore.injection (tableAddr x tb p j) = (none, s.tableStore.injection))
    (hw : Mem.read tableDefault s.tableStore.mem (tableAddr x tb p j) = encodeWord 22 d) :
    s.readBankWord x tb p j = (some d, s) := by
  rw [State.readBankWord_eq, State.readTableWord_stored hi hw]

/-- The next read of the address `a` takes the bits `w`, with no injection armed after it, and reads of other addresses are not
disturbed. -/
structure State.ReadsAs (s : State) (a : Nat) (w : BitVec 22) : Prop where
  bits : asRead (takeInjection s.tableStore.injection a).1 (Mem.read tableDefault s.tableStore.mem a) = w
  after : (takeInjection s.tableStore.injection a).2 = none
  other : ∀ b, b ≠ a → takeInjection s.tableStore.injection b = (none, s.tableStore.injection)

/-- A word reads so as it is stored, or with the flips of an injection armed for its address. -/
theorem State.readsAs_of (h : (s.tableStore.injection = none ∧ w = Mem.read tableDefault s.tableStore.mem a) ∨
    ∃ i, s.tableStore.injection = some i ∧ i.trigger = .address a ∧
      w = Mem.read tableDefault s.tableStore.mem a ^^^ (if i.kind = .single then 8 else 40)) : s.ReadsAs a w := by
  have hreads : s.TableReads a w none :=
    h.imp (fun ⟨hi, hw⟩ => ⟨hi, hw, rfl⟩) fun ⟨i, hi, ht, hw⟩ => ⟨i, hi, .inl ⟨.inl ht, hw, rfl⟩⟩
  refine ⟨hreads.eq.1.symm, hreads.eq.2.symm, fun b hb => ?_⟩
  obtain ⟨hi, -⟩ | ⟨i, hi, ht, -⟩ := h
  · simp [hi, takeInjection]
  · simp [hi, ht, takeInjection, Ne.symm hb]

/-- The state after the read of a word that is corrected to `v` (R156, R171). -/
def State.correctedAt (s : State) (x : Side) (a y : Nat) (v : BitVec 22) : State :=
  ((({ s with tableStore := { s.tableStore with injection := none } } : State).writeTableWords a [dataOf 16 v]).offerTable
    { kind := .corrected, addr := a, syndrome := y, side := x }).reportCorrected a

/-- The state after the read of a word that is uncorrectable (R156, R171). -/
def State.lostAt (s : State) (x : Side) (a y : Nat) : State :=
  ({ s with tableStore := { s.tableStore with injection := none } } : State).offerTable
    { kind := .uncorrectable, addr := a, syndrome := y, side := x }

theorem State.ReadsAs.corrected (h : s.ReadsAs a w) (hc : checkWord 5 w = .corrected y v) :
    s.readTableWord x a = (some (dataOf 16 v), s.correctedAt x a y v) := by
  simp only [State.readTableWord, h.bits, h.after, hc]
  rfl

theorem State.ReadsAs.uncorrectable (h : s.ReadsAs a w) (hc : checkWord 5 w = .uncorrectable y) :
    s.readTableWord x a = (none, s.lostAt x a y) := by
  simp only [State.readTableWord, h.bits, h.after, hc]
  rfl

/-- The error log after one read in error is that of `offerLog` (R171). -/
theorem logAfter_corrected (log : Option LogRecord) (hc : checkWord 5 w = .corrected y v) :
    logAfter 5 x log [(a, w)] = offerLog log { kind := .corrected, addr := a, syndrome := y, side := x } := by
  cases log <;> simp [logAfter, offerLog, hc]

theorem logAfter_uncorrectable (log : Option LogRecord) (hc : checkWord 5 w = .uncorrectable y) :
    logAfter 5 x log [(a, w)] = offerLog log { kind := .uncorrectable, addr := a, syndrome := y, side := x } := by
  cases log <;> simp [logAfter, offerLog, hc]

section

variable (s : State) (x : Side) (a y : Nat) (v : BitVec 22)

theorem State.correctedAt_sides : (s.correctedAt x a y v).sides = s.sides := State.raise_sides _ _ _

theorem State.correctedAt_tableStore : (s.correctedAt x a y v).tableStore =
    { s.tableStore with
      mem := Mem.writeBlock tableDefault s.tableStore.mem a [encodeWord 22 (dataOf 16 v)]
      injection := none
      log := offerLog s.tableStore.log { kind := .corrected, addr := a, syndrome := y, side := x } } := State.raise_tableStore _ _ _

theorem State.correctedAt_read (b : Nat) : Mem.read tableDefault (s.correctedAt x a y v).tableStore.mem b =
    if b = a then encodeWord 22 (dataOf 16 v : Word) else Mem.read tableDefault s.tableStore.mem b := by
  rw [State.correctedAt_tableStore]
  exact Mem.read_write _ _ _ _

theorem State.correctedAt_reports : (s.correctedAt x a y v).ReportsCorrected a := by
  rw [State.ReportsCorrected, State.correctedAt, State.reportCorrected, State.raise_corrCond, State.raise_faults,
    FaultTable.get_set_self]
  exact ⟨rfl, FaultRecord.setAt_state _ _ _, FaultRecord.setAt_detail _ _ _⟩

end

/-- The state after the read of a word of a shadow that is uncorrectable: the shadow is poisoned at that word (R155, R156). -/
def State.shadowLost (s : State) (x : Side) (tb : TableId) (p : PhysBank) (j y : Nat) : State :=
  (s.lostAt x (tableAddr x tb p j) y).onSide x (fun d =>
    { d with tables := { d.tables with ctl := d.tables.ctl.set tb ((d.tables.ctl.get tb).setBad p (some j)) } })

theorem State.ReadsAs.readBankWord_corrected (h : s.ReadsAs (tableAddr x tb p j) w) (hc : checkWord 5 w = .corrected y v) :
    s.readBankWord x tb p j = (some (dataOf 16 v), s.correctedAt x (tableAddr x tb p j) y v) := by
  rw [State.readBankWord_eq, h.corrected hc]

theorem State.ReadsAs.readBankWord_lost (h : s.ReadsAs (tableAddr x tb p j) w) (hc : checkWord 5 w = .uncorrectable y)
    (hp : p ≠ ((s.side x).tables.ctl.get tb).active) (hb : ((s.side x).tables.ctl.get tb).bad p = none) :
    s.readBankWord x tb p j = (none, s.shadowLost x tb p j y) := by
  have hside : (s.lostAt x (tableAddr x tb p j) y).side x = s.side x := rfl
  rw [State.readBankWord_eq, h.uncorrectable hc]
  dsimp only
  rw [hside, if_neg hp, TableCtl.poisonAt, hb]
  rfl

end Sys2Proof.Machine
end

section
/-! What the validation of a COMMIT finds: over shadows stored without error, and over one with a word that reads with an error (R97, R156,
R159, R160, R171). -/

namespace Sys2Proof.Machine

/-! ## The table's own checks along a read run (R160) -/

namespace BankDelivers

variable {x : Side} {tb : TableId} {p : PhysBank} {content : List Word} {run : Nat → State} {m : Nat} {u : State}

theorem table_passes (h : BankDelivers x tb p content run tb.words) (hrules : tb.Passes content) :
    State.runChecks x tb p (contentChecks tb.kind) [] (run 0) = (.pass, run tb.words) :=
  h.runChecks_passes (n := 0) (Nat.zero_le _) (contentChecks_fit tb) (contentChecks_readNeeds tb.kind)
    (passes_of_decides (contentChecks_decide content tb.kind) hrules)

theorem table_fails (h : BankDelivers x tb p content run tb.words) {pre post : List ContentRule} {q : ContentRule}
    (hrules : tb.kind.rules content = pre ++ q :: post) (hpre : ∀ o ∈ pre, o.2) (hq : ¬ q.2) :
    ∃ i, State.runChecks x tb p (contentChecks tb.kind) [] (run 0) = (.badContent tb q.1, run i) := by
  obtain ⟨before, c, after, hchecks, hbefore, hc, hindex⟩ :=
    fails_of_decides (hrules ▸ contentChecks_decide content tb.kind) hpre hq
  have hfit := contentChecks_fit tb
  have hreads := contentChecks_readNeeds tb.kind
  rw [hchecks] at hfit hreads ⊢
  rw [← hindex]
  exact h.runChecks_fails (n := 0) (Nat.zero_le _) hfit hreads hbefore hc

theorem table_stops (h : BankDelivers x tb p content run m) (hm : m < tb.words) (hstop : (run m).readBankWord x tb p m = (none, u))
    (hrules : tb.Passes content) : State.runChecks x tb p (contentChecks tb.kind) [] (run 0) = (.tableError tb m, u) :=
  h.runChecks_stops (n := 0) hm hstop (Nat.zero_le _) (contentChecks_readNeeds tb.kind)
    (passes_of_decides (contentChecks_decide content tb.kind) hrules)

end BankDelivers

variable {s t : State} {x : Side} {tb : TableId} {p : PhysBank} {content : List Word} {j k y : Nat} {w v : BitVec 22}

/-! ## What the words stored deliver (R155, R156) -/

/-- Word `k` of a bank is stored without error as that of `content`. -/
def State.StoresWord (s : State) (x : Side) (tb : TableId) (p : PhysBank) (content : List Word) (k : Nat) : Prop :=
  ∀ d, content[k]? = some d → Mem.read tableDefault s.tableStore.mem (tableAddr x tb p k) = encodeWord 22 d

theorem State.StoresWord.readBankWord (h : s.StoresWord x tb p content k) (hk : k < content.length)
    (hi : takeInjection s.tableStore.injection (tableAddr x tb p k) = (none, s.tableStore.injection)) :
    s.readBankWord x tb p k = (some (content.getD k 0), s) := by
  rw [List.getD_eq_getElem _ _ hk]
  exact State.readBankWord_stored hi (h _ (List.getElem?_eq_getElem hk))

/-- A bank stored without error, while no injection is armed, is delivered and left as it stands. -/
theorem State.bankDelivers_stored (hi : s.tableStore.injection = none) (hlen : content.length = tb.words)
    (hw : ∀ k, s.StoresWord x tb p content k) : BankDelivers x tb p content (fun _ => s) tb.words where
  length := hlen.ge
  word k hk := (hw k).readBankWord (hlen ▸ hk) (by simp [hi, takeInjection])

section

variable (h : s.ReadsAs (tableAddr x tb p j) w) (hlen : content.length = tb.words)
  (hw : ∀ k, k ≠ j → s.StoresWord x tb p content k)
include h hlen hw

theorem State.ReadsAs.readBankWord_other (hk : k < tb.words) (hne : k ≠ j) :
    s.readBankWord x tb p k = (some (content.getD k 0), s) :=
  (hw k hne).readBankWord (hlen ▸ hk) (h.other _ fun ha => hne (tableAddr_inj ha))

variable (hj : j < tb.words)
include hj

/-- Up to the word in error the bank is delivered and left as it stands. -/
theorem State.ReadsAs.bankDelivers_before : BankDelivers x tb p content (fun _ => s) j where
  length := hlen ▸ Nat.le_of_lt hj
  word k hk := h.readBankWord_other hlen hw (by omega) (by omega)

/-- With the word in error corrected the whole bank is delivered, the words after it in the state after the correction. -/
theorem State.ReadsAs.bankDelivers_corrected (hc : checkWord 5 w = .corrected y v) (hd : content[j]? = some (dataOf 16 v)) :
    BankDelivers x tb p content (fun i => if i ≤ j then s else s.correctedAt x (tableAddr x tb p j) y v) tb.words where
  length := hlen.ge
  word k hk := by
    rcases Nat.lt_trichotomy k j with hlt | rfl | hgt
    · rw [if_pos (by omega), if_pos (by omega)]
      exact h.readBankWord_other hlen hw hk (by omega)
    · rw [if_pos (Nat.le_refl _), if_neg (by omega), h.readBankWord_corrected hc, List.getD_eq_getElem?_getD, hd]
      rfl
    · rw [if_neg (by omega), if_neg (by omega)]
      have hstored : (s.correctedAt x (tableAddr x tb p j) y v).StoresWord x tb p content k := fun d hd => by
        rw [State.correctedAt_read, if_neg fun ha => by have := tableAddr_inj ha; omega]
        exact hw k (by omega) d hd
      refine hstored.readBankWord (hlen ▸ hk) ?_
      rw [State.correctedAt_tableStore]
      rfl

end

/-! ## The named shadows in turn (R159) -/

theorem State.validate_cons_pass {tbs : List TableId}
    (h : State.runChecks x tb ((s.side x).tables.ctl.get tb).active.other (contentChecks tb.kind) [] s = (.pass, t)) :
    State.validate x (tb :: tbs) s = State.validate x tbs t := by
  rw [State.validate, h]

/-- The run ends at a table whose checks do not pass. -/
theorem State.validate_cons_stop {tbs : List TableId} {r : Verdict} (hr : r ≠ .pass)
    (h : State.runChecks x tb ((s.side x).tables.ctl.get tb).active.other (contentChecks tb.kind) [] s = (r, t)) :
    State.validate x (tb :: tbs) s = (r, t) := by
  rw [State.validate, h]
  cases r with
  | pass => exact absurd rfl hr
  | badContent _ _ => rfl
  | tableError _ _ => rfl

/-- Tables that pass and are left as they stand are behind the run. -/
theorem State.validate_append {pre post : List TableId} (h : ∀ tb ∈ pre,
    State.runChecks x tb ((s.side x).tables.ctl.get tb).active.other (contentChecks tb.kind) [] s = (.pass, s)) :
    State.validate x (pre ++ post) s = State.validate x post s := by
  induction pre with
  | nil => rfl
  | cons tb pre ih =>
    obtain ⟨hfirst, hrest⟩ := List.forall_mem_cons.mp h
    exact (State.validate_cons_pass hfirst).trans (ih hrest)

theorem TableId.all_sorted : TableId.all.Pairwise (fun a b => a.num < b.num) := by decide

/-- The tables before a named one in the list of a set have lower ids. -/
theorem TableId.filter_split {P : TableId → Bool} (h : tb ∈ TableId.all.filter P) :
    ∃ pre post, TableId.all.filter P = pre ++ tb :: post ∧ ∀ u ∈ pre, u.num < tb.num := by
  obtain ⟨pre, post, hsplit⟩ := List.append_of_mem h
  have hsorted := TableId.all_sorted.filter P
  rw [hsplit] at hsorted
  exact ⟨pre, post, hsplit, fun u hu => (List.pairwise_append.mp hsorted).2.2 u hu tb List.mem_cons_self⟩

/-- The shadow of a table of a side stands as `content`, stored without error. -/
def State.StoresShadow (s : State) (x : Side) (tb : TableId) (content : List Word) : Prop :=
  content.length = tb.words ∧ ∀ k, s.StoresWord x tb ((s.side x).tables.ctl.get tb).active.other content k

section

variable {names : List TableId} {content : TableId → List Word} (hi : s.tableStore.injection = none)
  (hs : ∀ u ∈ names, s.StoresShadow x u (content u))
include hi hs

theorem State.runChecks_stored (htb : tb ∈ names) (hrules : tb.Passes (content tb)) :
    State.runChecks x tb ((s.side x).tables.ctl.get tb).active.other (contentChecks tb.kind) [] s = (.pass, s) :=
  (State.bankDelivers_stored hi (hs tb htb).1 (hs tb htb).2).table_passes hrules

/-- Shadows stored without error whose rules hold pass, and nothing changes (R160). -/
theorem State.validate_stored (hrules : ∀ u ∈ names, u.Passes (content u)) : State.validate x names s = (.pass, s) := by
  have h := State.validate_append (post := []) fun u hu => State.runChecks_stored hi hs hu (hrules u hu)
  rw [List.append_nil] at h
  exact h

/-- Otherwise the first rule of the first table that fails is found, and nothing changes (R160). -/
theorem State.validate_stored_fails {P : TableId → Bool} (hn : names = TableId.all.filter P) (htb : tb ∈ names)
    {pre post : List ContentRule} {q : ContentRule} (hrules : tb.kind.rules (content tb) = pre ++ q :: post) (hpre : ∀ o ∈ pre, o.2)
    (hq : ¬ q.2) (hbefore : ∀ u ∈ names, u.num < tb.num → u.Passes (content u)) :
    State.validate x names s = (.badContent tb q.1, s) := by
  obtain ⟨first, rest, hsplit, hlower⟩ := TableId.filter_split (hn ▸ htb)
  have hfirst : ∀ u ∈ first, u ∈ names := fun u hu => by rw [hn, hsplit]; exact List.mem_append_left _ hu
  obtain ⟨-, hfail⟩ := (State.bankDelivers_stored hi (hs tb htb).1 (hs tb htb).2).table_fails hrules hpre hq
  rw [hn, hsplit, State.validate_append fun u hu =>
    State.runChecks_stored hi hs (hfirst u hu) (hbefore u (hfirst u hu) (hlower u hu))]
  exact State.validate_cons_stop (by simp) hfail

end

section

variable (h : s.ReadsAs (tableAddr x tb ((s.side x).tables.ctl.get tb).active.other j) w) (hlen : content.length = tb.words)
  (hj : j < tb.words) (hw : ∀ k, k ≠ j → s.StoresWord x tb ((s.side x).tables.ctl.get tb).active.other content k)
  (hrules : tb.Passes content)
include h hlen hj hw hrules

/-- A shadow whose rules hold passes with one word corrected (R156). -/
theorem State.validate_corrected (hc : checkWord 5 w = .corrected y v) (hd : content[j]? = some (dataOf 16 v)) :
    State.validate x [tb] s =
      (.pass, s.correctedAt x (tableAddr x tb ((s.side x).tables.ctl.get tb).active.other j) y v) := by
  have hrun := (h.bankDelivers_corrected hlen hw hj hc hd).table_passes hrules
  rw [if_pos (Nat.zero_le _), if_neg (Nat.not_le.mpr hj)] at hrun
  exact State.validate_cons_pass hrun

/-- An uncorrectable word of a shadow stops the run and poisons the shadow (R156, R159). -/
theorem State.validate_lost (hc : checkWord 5 w = .uncorrectable y)
    (hb : ((s.side x).tables.ctl.get tb).bad ((s.side x).tables.ctl.get tb).active.other = none) :
    State.validate x [tb] s = (.tableError tb j, s.shadowLost x tb ((s.side x).tables.ctl.get tb).active.other j y) :=
  State.validate_cons_stop (by simp) ((h.bankDelivers_before hlen hw hj).table_stops hj
    (h.readBankWord_lost hc (PhysBank.other_ne _) hb) hrules)

end

end Sys2Proof.Machine
end

section
/-! COMMIT, answered by its validation (R159 to R162, R164, R197). -/

namespace Sys2Proof.Machine

variable {s v : State} {l x : Side} {p : Packet} {r : Verdict} {names : List TableId}

/-- The tables named in a packet's selector word. -/
theorem namedTables_setWidth (w : Word) : namedTables (w.setWidth 13) = TableId.all.filter (fun tb => w.getLsbD tb.num) := by
  refine List.filter_congr fun tb _ => ?_
  have hnum : tb.num < 13 := by cases tb <;> decide
  simp [hnum]

theorem mem_filter_named {w : Word} {tb : TableId} :
    tb ∈ TableId.all.filter (fun tb => w.getLsbD tb.num) ↔ (w.setWidth 13).getLsbD tb.num = true := by
  rw [← namedTables_setWidth, mem_namedTables]

theorem setWord_setWidth {w : Word} (h : w.toNat < 8192) : setWord (w.setWidth 13) = w := by
  refine BitVec.eq_of_toNat_eq ?_
  simp only [setWord, BitVec.toNat_setWidth]
  omega

/-- The answer of a COMMIT whose validation comes to a verdict in the state `v` (R159, R161). -/
def State.commitVerdict (l x : Side) (set : BitVec 13) (v : State) : Verdict → Response × State
  | .tableError tb j => (.refused .tableError [wordOf tb.num, wordOf j], v)
  | .badContent tb j => (.refused .badContent [wordOf tb.num, wordOf j], v)
  | .pass => State.acceptCommit l x set v

/-- What a COMMIT asks before its validation: no lock, no pending commit, and shadows that are LOADED and not poisoned (R159). -/
structure State.CommitChecked (s : State) (x : Side) (names : List TableId) : Prop where
  unlocked : ∀ tb ∈ names, s.locks.covers tb = false
  free : (s.side x).tables.commit = none
  loaded : ∀ tb ∈ names, ((s.side x).tables.ctl.get tb).shadow = .loaded
  sound : ∀ tb ∈ names, ((s.side x).tables.ctl.get tb).bad ((s.side x).tables.ctl.get tb).active.other = none

theorem State.commitDirective_validated {set : BitVec 13} (h : s.CommitChecked x (namedTables set))
    (hv : State.validate x (namedTables set) s = (r, v)) : State.commitDirective l x set s = v.commitVerdict l x set r := by
  have hlock : ¬ (namedTables set).any (fun tb => s.locks.covers tb) = true := by simpa using h.unlocked
  have hfree : ¬ (s.side x).tables.commit.isSome = true := by simp [h.free]
  have hstale : (s.side x).tables.firstStale set = none :=
    List.find?_eq_none.mpr fun tb htb => by simp [h.loaded tb htb]
  have hbad : (s.side x).tables.firstShadowBad set = none :=
    List.findSome?_eq_none_iff.mpr fun tb htb => by simp [h.sound tb htb]
  rw [State.commitDirective, if_neg hlock, if_neg hfree, hstale, hbad]
  simp only [hv]
  cases r <;> rfl

/-- An admissible COMMIT is answered by its validation. -/
theorem exec_commit_validated (ha : s.Admits l) (hp : p.Plain) (hx : sideField p.side = some x) (h0 : 0 < p.s0.toNat)
    (hlt : p.s0.toNat < 8192) (hn : names = TableId.all.filter (fun tb => p.s0.getLsbD tb.num)) (h : s.CommitChecked x names)
    (hv : State.validate x names s = (r, v)) : exec (.commit l p) s =
      .next ((v.commitVerdict l x (p.s0.setWidth 13) r).2.respond l p.tag (v.commitVerdict l x (p.s0.setWidth 13) r).1) := by
  have hset : ¬ (p.s0 = 0 ∨ 8192 ≤ p.s0.toNat) := by
    rintro (hz | hz)
    · rw [hz] at h0; exact absurd h0 (by decide)
    · omega
  rw [← namedTables_setWidth] at hn
  subst hn
  rw [exec_commit, State.take_eq _ _ ha.1, State.plainDirective_eq s l p _ ha hp, hx]
  dsimp only
  rw [if_neg hset, State.commitDirective_validated h hv]

/-- A COMMIT that passes while the port is not RUNNING is swapped at once (R161, R162, R164). -/
structure State.SwapsAtOnce (v t : State) (l x : Side) (p : Packet) (names : List TableId) : Prop where
  ctl : ∀ tb, (t.side x).tables.ctl.get tb =
    if tb ∈ names then { (v.side x).tables.ctl.get tb with active := ((v.side x).tables.ctl.get tb).active.other, shadow := .stale }
    else (v.side x).tables.ctl.get tb
  commit : (t.side x).tables.commit = none
  poison : v.SwapEndsPoison t x
  other : t.side x.other = v.side x.other
  tableStore : t.tableStore = v.tableStore
  replies : (t.link l).replies = (v.link l).replies ++ [.ready { tag := p.tag, reason := none, data := [p.s0] }]

theorem State.swapSet_swapsAtOnce (v : State) (l x : Side) (p : Packet) (hlt : p.s0.toNat < 8192) :
    v.SwapsAtOnce ((v.swapSet x { tables := p.s0.setWidth 13, link := none }).Answered l p.tag none [setWord (p.s0.setWidth 13)])
      l x p (TableId.all.filter (fun tb => p.s0.getLsbD tb.num)) where
  ctl tb := by
    rw [State.Answered_side, State.swapSet_ctl, swapTables_get]
    simp only [mem_filter_named]
    rfl
  commit := State.swapSet_commit _ _ _
  poison := State.swapSet_endsPoison _ _ _
  other := (State.swapSet_within _ _ _).other
  tableStore := State.swapSet_tableStore _ _ _
  replies := by
    rw [State.Answered_link, Link.Queued, State.swapSet_replies, if_neg (by simp), setWord_setWidth hlt]

/-- Settles O46: the directive's checks lead to its validation (`exec_commit_validated`), whose verdict and state over shadows stored
without error are `State.validate_stored` and `State.validate_stored_fails`, and over one word in error `State.validate_corrected` and
`State.validate_lost`. -/
theorem commitIsAnsweredByItsValidation : Obligations.CommitIsAnsweredByItsValidation := by
  intro l x p s v r names ha hp hx h0 hlt hn hlock hfree hshadow hv
  have checked : s.CommitChecked x names := ⟨hlock, hfree, fun tb htb => (hshadow tb htb).1, fun tb htb => (hshadow tb htb).2⟩
  have answer := exec_commit_validated ha hp hx h0 hlt hn checked hv
  have hport : (v.side x).port = (s.side x).port := by
    have h := (State.validate_frame x names s).port
    rwa [hv] at h
  refine ⟨fun tb j hr => ?_, fun tb j hr => ?_, fun hr hrun => ?_, fun hr hrun => ?_,
    fun content shadow hsh hlen => ⟨fun hi hw => ?_, ?_⟩⟩
  · rw [answer, hr]
    rfl
  · rw [answer, hr]
    rfl
  · rw [answer, hr, State.commitVerdict, State.acceptCommit, if_pos (by rw [hport, hrun])]
    rfl
  · rw [answer, hr, State.commitVerdict, State.acceptCommit, if_neg (by rwa [hport]), State.respond_done]
    have swapped := State.swapSet_swapsAtOnce v l x p hlt
    rw [← hn] at swapped
    exact ⟨_, rfl, swapped.ctl, swapped.commit, swapped.poison, swapped.other, swapped.tableStore, swapped.replies⟩
  · have stores : ∀ u ∈ names, s.StoresShadow x u (content u) := fun u hu =>
      ⟨hlen u hu, fun k d hd => by rw [← hsh]; exact hw u hu k d hd⟩
    refine ⟨fun hrules => ?_, fun tb htb pre q post hrules hpre hq hbefore => ?_⟩
    · rw [State.validate_stored hi stores hrules] at hv
      cases hv
      exact ⟨rfl, rfl⟩
    · rw [State.validate_stored_fails hi stores hn htb hrules hpre hq hbefore] at hv
      cases hv
      exact ⟨rfl, rfl⟩
  · intro tb j a w hone hj haddr hrules hw herr
    subst hone
    obtain ⟨-, hbad⟩ := hshadow tb List.mem_cons_self
    rw [hsh] at haddr
    subst haddr
    have reads := State.readsAs_of herr
    have stored : ∀ k, k ≠ j → s.StoresWord x tb ((s.side x).tables.ctl.get tb).active.other (content tb) k := fun k hk d hd => by
      rw [← hsh]; exact hw k d hk hd
    refine ⟨fun y d hc hd => ?_, fun y hc => ?_⟩
    · rw [State.validate_corrected reads (hlen tb List.mem_cons_self) hj stored hrules hc hd] at hv
      cases hv
      refine ⟨rfl, State.correctedAt_sides .., State.correctedAt_reports .., ?_, ?_, State.correctedAt_read _ _ _ _ _⟩ <;>
        rw [State.correctedAt_tableStore]
      exact (logAfter_corrected _ hc).symm
    · rw [State.validate_lost reads (hlen tb List.mem_cons_self) hj stored hrules hc hbad] at hv
      cases hv
      refine ⟨rfl, rfl, rfl, (logAfter_uncorrectable _ hc).symm, rfl, rfl, fun u => ?_, ?_, ?_⟩
      · rw [State.shadowLost, State.onSide_side]
        exact PerTable.get_set _ _ _ _
      · rw [State.shadowLost, State.onSide_side]
        rfl
      · rw [State.shadowLost, State.onSide_side_other]
        rfl

end Sys2Proof.Machine
end
